-- ==== Sys2Proof/Word.lean ====
section
/-! DEFINITION. The word types of the SPI Frame Transfer Core (spec/00_scope.md R7; spec/30_encoding.md R80, R82, R86). -/

namespace Sys2Proof

/-- R7: the word size is 8 bits; every header byte, sync byte and payload element is one byte. -/
abbrev Byte := BitVec 8

/-- The 32-bit command, engine request and result words of R80, R82 and R86. -/
abbrev Word := BitVec 32

end Sys2Proof
end

