-- ==== Sys2Proof/Config.lean ====
section
/-! DEFINITION. What an implementation fixes (spec/00_scope.md section 3) and the values the spec leaves open
(spec/93_implementation_defined.md). The parameters are plain data carried by the state and changed by no step, so
that a claim may quantify over them; each open value is a constant without a body. -/

namespace Sys2Proof

/-- The design-time parameters of R4, R5 and R10. `State` holds one value of it and no step changes it (R222, R224). -/
structure Params where
  /-- R4: SYNC_BYTE, a parameter whose default is 0x62. -/
  syncByte : Byte
  /-- R5: MAX_FRAME, the largest number of bytes of one transaction, header and payload together; default 768. -/
  maxFrame : Nat
  /-- R10: NUM_REQ, the number of requester ports. -/
  numReq : Nat
  deriving DecidableEq, Repr

/-- The defaults of R4 and R5. NUM_REQ has no default in the spec: 2 is the model's choice for the reset state
(DESIGN CHOICE, log entry 3). Unsafe for a claim that rests on the number. -/
def Params.default : Params := { syncByte := 0x62#8, maxFrame := 768, numReq := 2 }

/-- The order in which the bits of a byte go on the wire: the open parameter TRANSPORT_BIT_ORDER of R63. -/
inductive BitOrder where
  | msbFirst
  | lsbFirst
  deriving DecidableEq, Repr, Inhabited

/-- R63, I1: TRANSPORT_FILL_BYTE, what the transport clocks out while the core transmits nothing. Left open; read by
no rule of the core. -/
opaque Config.transportFillByte : Byte

/-- R63, I12: TRANSPORT_BIT_ORDER. Left open; read by no rule of the core. -/
opaque Config.transportBitOrder : BitOrder

/-- R63, I12: TRANSPORT_MODE, the SPI clock mode, as a bare number. Left open; read by no rule of the core. -/
opaque Config.transportMode : Nat

/-- I7, R36, R42: the content of a PAYLOAD byte that nothing has written since the reset numbered by the first
argument; the second is its index. A free value (log entry 1). -/
opaque Config.unwrittenByte : Nat → Nat → Byte

/-- I6, R150: the free choice among several pending requests, one draw for each value of the state's counter
(log entry 4). -/
opaque Config.arbitration : Nat → Nat

end Sys2Proof
end

