-- ==== Sys2Proof/Syntax.lean ====
section
/-! DEFINITION. The instructions of spec/opcode_table.json, one constructor a row, and the other values that cross the
core's ports (spec/10_state.md section 2; spec/30_encoding.md section 1). -/

namespace Sys2Proof

/-- One constructor for each row of spec/opcode_table.json (R93). The reserved fields are kept, because CMD latches
the whole command word (R30); no meaning reads them (R95). -/
inductive Instr where
  /-- R154: command word with OP = 0b00. -/
  | blkWrite (rsv0 : BitVec 6) (addr : BitVec 9) (rsv1 : BitVec 3) (len : BitVec 12)
  /-- R155: command word with OP = 0b01. -/
  | blkRead (rsv0 : BitVec 6) (addr : BitVec 9) (rsv1 : BitVec 3) (len : BitVec 12)
  /-- R163: command word with OP[1] = 1; `op0` is OP[0]. -/
  | cmdReserved (op0 : BitVec 1) (rsv0 : BitVec 6) (addr : BitVec 9) (rsv1 : BitVec 3) (len : BitVec 12)
  /-- R130: engine request with OP = 0b00. -/
  | xferWrite (hasBuf : Bool) (rsv : BitVec 5) (addr : BitVec 9) (rsvHi : BitVec 3) (len : BitVec 12)
  /-- R131: engine request with OP = 0b01. -/
  | xferRead (hasBuf : Bool) (rsv : BitVec 5) (addr : BitVec 9) (rsvHi : BitVec 3) (len : BitVec 12)
  /-- R132: engine request with OP[1] = 1; `op0` is OP[0]. -/
  | xferInvalid (op0 : BitVec 1) (hasBuf : Bool) (rsv : BitVec 5) (addr : BitVec 9) (rsvHi : BitVec 3) (len : BitVec 12)
  /-- R116: wire header of a write to an address below 256. -/
  | hdrWrite (addrLo : Byte)
  /-- R116: wire header of a write to an address of 256 or more. -/
  | hdrWriteExt (addrLo : Byte)
  /-- R117: wire header of a read. -/
  | hdrRead
  /-- R125: a received header byte 0 equal to SYNC_BYTE. -/
  | syncAck
  deriving DecidableEq, Repr

/-- The two operations of the engine (R83); an operation code outside them has no direction and no header size (R8). -/
inductive Dir where
  | write
  | read
  deriving DecidableEq, Repr

/-- R86: the result codes; one code space serves the engine outcome and RESULT.CODE. -/
inductive Code where
  | ok
  | nack
  | invalidOp
  | frameTooLarge
  | missingBuffer
  | ioRetry
  | addrSetFail
  deriving DecidableEq, Repr

/-- R27: the values of SEQ, the sequencer state. -/
inductive Seq where
  | idle
  | setaddr
  | data
  | resp
  deriving DecidableEq, Repr

/-- R33, R34: a header register of two bytes. -/
structure HdrReg where
  b0 : Byte
  b1 : Byte
  deriving DecidableEq, Repr

/-- R21: what a requester offers on its request port. -/
structure Request where
  cmdw : Word
  wdata : List Byte
  deriving DecidableEq, Repr

/-- R22: what the core offers on a response port. -/
structure Response where
  resultw : Word
  rdata : List Byte
  deriving DecidableEq, Repr

/-- R87: one phase descriptor (TXB, RXL, N). -/
structure Phase where
  txb : Option (List Byte)
  rxl : Bool
  n : Nat
  deriving DecidableEq, Repr

/-- R87: a transaction descriptor, an ordered list of one or two phases. -/
abbrev Txn := List Phase

/-- R88: a transport result. `tstatus` is TSTATUS (true = failure); `rx` holds RX[0], then RX[1] where phase 1 receives. -/
structure TransportResult where
  tstatus : Bool
  rx : List (List Byte)
  deriving DecidableEq, Repr

/-- R24: the notifications of the power port. -/
inductive Notification where
  | activeInc
  | idleDec
  deriving DecidableEq, Repr

/-- R20: whose step comes next, with the choices that agent makes. A state carries the coming moves as data (log entry 2). -/
inductive Move where
  /-- Requester `r` offers a request on its port (R21). -/
  | offer (r : Nat) (req : Request)
  /-- The core takes its enabled step; `pick` is the requester an acceptance chooses (R150). -/
  | core (pick : Nat)
  /-- The transport answers the outstanding transaction (R123). -/
  | transport (res : TransportResult)
  /-- Requester `r` takes the response offered to it (R161). -/
  | take (r : Nat)
  /-- The power collaborator receives one notification (R24). -/
  | power
  /-- The lifecycle collaborator asserts RESET: detach (R223). -/
  | resetAssert
  /-- The lifecycle collaborator deasserts RESET: attach (R223). -/
  | resetDeassert
  deriving DecidableEq, Repr

end Sys2Proof
end

