-- ==== Sys2Proof/Machine/Operands.lean ====
section
/-! DEFINITION. Operand forms: the fields of the command and engine request words (spec/30_encoding.md R80, R82), the
words built from them, the header bytes (R84, R85, R90) and the shape of a transaction (R87, R118, R119, R120). -/

namespace Sys2Proof.Machine

/-- R80: OP, bits 1:0 of a command word. -/
def cmdOp (w : Word) : BitVec 2 := w.extractLsb' 0 2
/-- R80: RSV0, bits 7:2. -/
def cmdRsv0 (w : Word) : BitVec 6 := w.extractLsb' 2 6
/-- R80: ADDR, bits 16:8. -/
def cmdAddr (w : Word) : BitVec 9 := w.extractLsb' 8 9
/-- R80: RSV1, bits 19:17. -/
def cmdRsv1 (w : Word) : BitVec 3 := w.extractLsb' 17 3
/-- R80: LEN, bits 31:20. -/
def cmdLen (w : Word) : BitVec 12 := w.extractLsb' 20 12

/-- R80: the command word with these fields. -/
def cmdWord (op : BitVec 2) (rsv0 : BitVec 6) (addr : BitVec 9) (rsv1 : BitVec 3) (len : BitVec 12) : Word :=
  len ++ rsv1 ++ addr ++ rsv0 ++ op

/-- R82: OP, bits 1:0 of an engine request word. -/
def engOp (w : Word) : BitVec 2 := w.extractLsb' 0 2
/-- R82: HAS_BUF, bit 2. -/
def engHasBuf (w : Word) : Bool := w.getLsbD 2
/-- R82: RSV, bits 7:3. -/
def engRsv (w : Word) : BitVec 5 := w.extractLsb' 3 5
/-- R82: ADDR, bits 16:8. -/
def engAddr (w : Word) : BitVec 9 := w.extractLsb' 8 9
/-- R82: the upper RSV, bits 19:17. -/
def engRsvHi (w : Word) : BitVec 3 := w.extractLsb' 17 3
/-- R82: LEN, bits 31:20. -/
def engLen (w : Word) : BitVec 12 := w.extractLsb' 20 12

/-- R82: the engine request word with these fields. -/
def engWord (op : BitVec 2) (hasBuf : Bool) (rsv : BitVec 5) (addr : BitVec 9) (rsvHi : BitVec 3) (len : BitVec 12) :
    Word :=
  len ++ rsvHi ++ addr ++ rsv ++ BitVec.ofBool hasBuf ++ op

/-- R83: the engine's operation decode; an operation code of 0b10 or 0b11 is none. -/
def opDir (op : BitVec 2) : Option Dir :=
  if op = 0#2 then some .write else if op = 1#2 then some .read else none

/-- R154: the engine request of a BLK_WRITE. -/
def writeRequest (cmdw : Word) : Word := engWord 0#2 true 0#5 (cmdAddr cmdw) 0#3 (cmdLen cmdw)

/-- R155, R100: the positioning write of a BLK_READ, SETADDR. -/
def setaddrRequest (cmdw : Word) : Word := engWord 0#2 false 0#5 (cmdAddr cmdw) 0#3 0#12

/-- R157: the read request of a BLK_READ. -/
def readRequest (cmdw : Word) : Word := engWord 1#2 true 0#5 (cmdAddr cmdw) 0#3 (cmdLen cmdw)

/-- R8, R112: HDR_SIZE, defined for the two operations only. -/
def hdrSize : Dir → Nat
  | .write => 2
  | .read => 1

/-- R11: PAYLOAD_BUF_BYTES = MAX_FRAME - HDR_SIZE(Read). -/
def payloadBytes (p : Params) : Nat := p.maxFrame - hdrSize .read

/-- R31: the width of OWNER in bits, max(1, ceil(log2(NUM_REQ))). -/
def ownerWidth (p : Params) : Nat := max 1 (Nat.clog 2 p.numReq)

/-- R84, R90: byte 0 of a write header: bits 7:2 are 0, bit 1 is EXT = ADDR[8], bit 0 is 0. -/
def writeHeader0 (addr : BitVec 9) : Byte := 0#6 ++ BitVec.ofBool (addr.getLsbD 8) ++ 0#1

/-- R84, R90: byte 1 of a write header, ADDR[7:0]. -/
def writeHeader1 (addr : BitVec 9) : Byte := addr.extractLsb' 0 8

/-- R115 to R117: HDR_TX once populated from cleared bytes. -/
def headerFor (dir : Dir) (addr : BitVec 9) : HdrReg :=
  match dir with
  | .write => { b0 := writeHeader0 addr, b1 := writeHeader1 addr }
  | .read => { b0 := 0x01#8, b1 := 0x00#8 }

/-- The opcode-table row of the header the encoder generates (R93, R96, R116, R117). -/
def headerRow (dir : Dir) (addr : BitVec 9) : Instr :=
  match dir with
  | .write => if addr.getLsbD 8 then .hdrWriteExt (writeHeader1 addr) else .hdrWrite (writeHeader1 addr)
  | .read => .hdrRead

/-- R33, R119, R120: the bytes of HDR_TX that are transmitted, the first HDR_SIZE(op). -/
def headerBytes (dir : Dir) (h : HdrReg) : List Byte :=
  match dir with
  | .write => [h.b0, h.b1]
  | .read => [h.b0]

/-- R118: a data phase is present when HAS_BUF = 1 and LEN > 0. -/
def dataPhase (hasBuf : Bool) (len : BitVec 12) : Bool := hasBuf && decide (0 < len.toNat)

/-- R119, R120: phase 0 of a transaction. -/
def headerPhase (dir : Dir) (h : HdrReg) : Phase :=
  { txb := some (headerBytes dir h), rxl := true, n := hdrSize dir }

/-- R119, R120: phase 1; `bytes` is the write data, unused by a read. -/
def dataPhaseOf (dir : Dir) (bytes : List Byte) (len : BitVec 12) : Phase :=
  match dir with
  | .write => { txb := some bytes, rxl := false, n := len.toNat }
  | .read => { txb := none, rxl := true, n := len.toNat }

/-- R119 to R121: the one transaction of an engine transfer. -/
def txnFor (dir : Dir) (h : HdrReg) (hasBuf : Bool) (len : BitVec 12) (bytes : List Byte) : Txn :=
  if dataPhase hasBuf len then [headerPhase dir h, dataPhaseOf dir bytes len] else [headerPhase dir h]

/-- R88: the lengths of the byte sequences the transport returns, one for each receiving phase, for the transaction of
an engine transfer. -/
def rxLengths (dir : Dir) (hasBuf : Bool) (len : BitVec 12) : List Nat :=
  match dir with
  | .write => [2]
  | .read => if dataPhase hasBuf len then [1, len.toNat] else [1]

/-- R88: byte `i` of RX[p]. -/
def rxByte (res : TransportResult) (p i : Nat) : Byte := (res.rx.getD p []).getD i 0#8

/-- The same answer with its first received header byte replaced (used by SYNC_ACK, whose word is that byte). -/
def withSyncByte (res : TransportResult) (b : Byte) : TransportResult :=
  match res.rx with
  | (_ :: t) :: rest => { res with rx := (b :: t) :: rest }
  | _ => res

/-- R63: the bytes one phase clocks out; TRANSPORT_FILL_BYTE where the core transmits nothing (I1). -/
def phaseWireBytes (p : Phase) : List Byte :=
  match p.txb with
  | some bs => bs
  | none => List.replicate p.n Config.transportFillByte

/-- R63: the bytes of a transaction in wire order, header bytes first, then the data phase in ascending index order. -/
def wireBytes (t : Txn) : List Byte := t.flatMap phaseWireBytes

end Sys2Proof.Machine
end

