-- ==== Sys2Proof/WellFormed.lean ====
section
/-! DEFINITION. The checks the spec puts on what crosses a port: requests (spec/10_state.md R21), transport results
(spec/30_encoding.md R88), transaction descriptors (R87) and the parameters (spec/00_scope.md R5, R10). An `Instr` needs
no check of its own: each operand has exactly its field's width, so every term is the decoding of some word. -/

namespace Sys2Proof

open Sys2Proof.Machine

/-- R21: `len(WDATA) = LEN` for a BLK_WRITE, `len(WDATA) = 0` otherwise. -/
def Request.wf (req : Request) : Bool :=
  if cmdOp req.cmdw = 0#2 then req.wdata.length == (cmdLen req.cmdw).toNat else req.wdata.length == 0

/-- R88, R227: exactly one byte sequence of the stated length for each receiving phase. -/
def TransportResult.wf (res : TransportResult) (lengths : List Nat) : Bool :=
  res.rx.map List.length == lengths

/-- R87: a phase is at least one byte long and transmits exactly its length, or nothing. -/
def Phase.wf (p : Phase) : Bool :=
  decide (1 ≤ p.n) && (match p.txb with
    | some bs => bs.length == p.n
    | none => true)

/-- R87: one or two phases, the first of which transmits and receives. -/
def txnWf (t : Txn) : Bool :=
  (t.length == 1 || t.length == 2) && t.all Phase.wf && (match t.head? with
    | some p => p.rxl && p.txb.isSome
    | none => false)

/-- R88: the receiving phases' lengths, read from the descriptor itself. -/
def txnRxLengths (t : Txn) : List Nat := (t.filter (·.rxl)).map (·.n)

/-- R5, R10, R224: 2 <= MAX_FRAME <= 4096 and NUM_REQ >= 1. -/
def Params.wf (p : Params) : Bool := decide (2 ≤ p.maxFrame) && decide (p.maxFrame ≤ 4096) && decide (1 ≤ p.numReq)

end Sys2Proof
end

