-- ==== Sys2Proof/Decode.lean ====
section
/-! DEFINITION. The decoder and the encoder (spec/30_encoding.md sections 1 to 5). A word is read in the format of the
place it stands in: the request port (CMD), the register ENGREQ, the transmitted header (WHDR, RHDR) or the received
header byte 0 (RXHDR). -/

namespace Sys2Proof

open Sys2Proof.Machine

/-- The words of one instruction, in the place that fixes their format (R93). -/
inductive Image where
  /-- a command word on a request port (R80) -/
  | cmd (w : Word)
  /-- an engine request word in ENGREQ (R82) -/
  | engreq (w : Word)
  /-- transmitted header bytes, byte 0 first (R84, R85) -/
  | tx (bytes : List Byte)
  /-- the received header byte 0 (R89) -/
  | rx (b : Byte)
  deriving DecidableEq, Repr

/-- Why bytes are no instruction. -/
inductive DecodeError where
  /-- no byte at all -/
  | empty
  /-- a write header shorter than two bytes, which the core never sends (R96) -/
  | truncated
  /-- a header byte 0 other than 0x00, 0x01 and 0x02, never produced (R96, I17) -/
  | notAHeader (b0 : Byte)
  /-- bytes after the header (the data phase is not part of it, R98) -/
  | trailing
  /-- a received byte other than SYNC_BYTE: a protocol NACK, not an acknowledgement (R125) -/
  | notSync (b : Byte)
  deriving DecidableEq, Repr

/-- R81: the command decode, total on 32-bit words. -/
def decodeCmd (w : Word) : Instr :=
  if cmdOp w = 0#2 then .blkWrite (cmdRsv0 w) (cmdAddr w) (cmdRsv1 w) (cmdLen w)
  else if cmdOp w = 1#2 then .blkRead (cmdRsv0 w) (cmdAddr w) (cmdRsv1 w) (cmdLen w)
  else .cmdReserved ((cmdOp w).extractLsb' 0 1) (cmdRsv0 w) (cmdAddr w) (cmdRsv1 w) (cmdLen w)

/-- R83: the engine's operation decode, total on 32-bit words. -/
def decodeEng (w : Word) : Instr :=
  if engOp w = 0#2 then .xferWrite (engHasBuf w) (engRsv w) (engAddr w) (engRsvHi w) (engLen w)
  else if engOp w = 1#2 then .xferRead (engHasBuf w) (engRsv w) (engAddr w) (engRsvHi w) (engLen w)
  else .xferInvalid ((engOp w).extractLsb' 0 1) (engHasBuf w) (engRsv w) (engAddr w) (engRsvHi w) (engLen w)

/-- R98: a header and the bytes after it; bit 0 of byte 0 tells its length, one byte for a read, two for a write. -/
def decodeHeader : List Byte → Except DecodeError (Instr × List Byte)
  | [] => .error .empty
  | b0 :: rest =>
    if b0 = 0x01#8 then .ok (.hdrRead, rest)
    else if b0 = 0x00#8 then
      match rest with
      | [] => .error .truncated
      | b1 :: rest' => .ok (.hdrWrite b1, rest')
    else if b0 = 0x02#8 then
      match rest with
      | [] => .error .truncated
      | b1 :: rest' => .ok (.hdrWriteExt b1, rest')
    else .error (.notAHeader b0)

/-- R125: the received header byte 0, decoded by the sync validator. -/
def decodeRx (sync b : Byte) : Except DecodeError Instr :=
  if b = sync then .ok .syncAck else .error (.notSync b)

/-- The decoder, total on any words in any place. -/
def decode (sync : Byte) : Image → Except DecodeError Instr
  | .cmd w => .ok (decodeCmd w)
  | .engreq w => .ok (decodeEng w)
  | .tx bytes =>
    match decodeHeader bytes with
    | .ok (i, []) => .ok i
    | .ok (_, _ :: _) => .error .trailing
    | .error e => .error e
  | .rx b => decodeRx sync b

/-- The encoder, written from the layouts of R80, R82, R84, R85 and R89. -/
def encode (sync : Byte) : Instr → Image
  | .blkWrite rsv0 addr rsv1 len => .cmd (cmdWord 0#2 rsv0 addr rsv1 len)
  | .blkRead rsv0 addr rsv1 len => .cmd (cmdWord 1#2 rsv0 addr rsv1 len)
  | .cmdReserved op0 rsv0 addr rsv1 len => .cmd (cmdWord (1#1 ++ op0) rsv0 addr rsv1 len)
  | .xferWrite hasBuf rsv addr rsvHi len => .engreq (engWord 0#2 hasBuf rsv addr rsvHi len)
  | .xferRead hasBuf rsv addr rsvHi len => .engreq (engWord 1#2 hasBuf rsv addr rsvHi len)
  | .xferInvalid op0 hasBuf rsv addr rsvHi len => .engreq (engWord (1#1 ++ op0) hasBuf rsv addr rsvHi len)
  | .hdrWrite addrLo => .tx [0x00#8, addrLo]
  | .hdrWriteExt addrLo => .tx [0x02#8, addrLo]
  | .hdrRead => .tx [0x01#8]
  | .syncAck => .rx sync

/-- The instruction of one value in the opcode table's numbering. 32 bits are read as a command word, the word that
comes from outside the core: a CMD row and the ENGREQ row of the same OP have the same fixed bits, and only the place of
the word tells them apart (log entry 6). 16 bits are a write header, byte 0 in bits 15:8 (R93). 8 bits are a read
header, else the received sync byte at the parameter's default. -/
def decodeTableWord (nbits w : Nat) : Option Instr :=
  match nbits with
  | 32 => some (decodeCmd (BitVec.ofNat 32 w))
  | 16 =>
    match decode Params.default.syncByte (.tx [BitVec.ofNat 8 (w / 256), BitVec.ofNat 8 w]) with
    | .ok i => some i
    | .error _ => none
  | 8 =>
    match decode Params.default.syncByte (.tx [BitVec.ofNat 8 w]) with
    | .ok i => some i
    | .error _ =>
      match decode Params.default.syncByte (.rx (BitVec.ofNat 8 w)) with
      | .ok i => some i
      | .error _ => none
  | _ => none

end Sys2Proof
end

