-- ==== Sys2Proof/Machine/Flags.lean ====
section
/-! DEFINITION. The result word and its status bits (spec/30_encoding.md R86; spec/10_state.md R35, R38), the sync
validator (spec/40_frame_engine.md R124), the translation and the logging policy (spec/41_block_access.md R158, R159). -/

namespace Sys2Proof.Machine

/-- R27: the 2-bit value of SEQ. -/
def seqBits : Seq → BitVec 2
  | .idle => 0#2
  | .setaddr => 1#2
  | .data => 2#2
  | .resp => 3#2

/-- R86: the number of a result code. -/
def codeBits : Code → BitVec 4
  | .ok => 0#4
  | .nack => 1#4
  | .invalidOp => 2#4
  | .frameTooLarge => 3#4
  | .missingBuffer => 4#4
  | .ioRetry => 5#4
  | .addrSetFail => 6#4

/-- R86: CODE, bits 3:0. -/
def resCode (w : Word) : BitVec 4 := w.extractLsb' 0 4
/-- R86: CAUSE, bits 7:4. -/
def resCause (w : Word) : BitVec 4 := w.extractLsb' 4 4
/-- R86: LOG, bit 8. -/
def resLog (w : Word) : Bool := w.getLsbD 8
/-- R86: TERR, bit 9. -/
def resTerr (w : Word) : Bool := w.getLsbD 9
/-- R86: RSV, bits 31:10. -/
def resRsv (w : Word) : BitVec 22 := w.extractLsb' 10 22

/-- R159: the logging policy, the only definition of RESULT.LOG. NACK and MISSING_BUFFER have no row in its table:
NACK is never posted (R128: "no-log"), and MISSING_BUFFER logs by R158's "if it fails for any other reason, log"
(DEDUCED, log entry 8; reachable only through the engine contract). -/
def logPolicy : Code → Bool
  | .ok => false
  | .nack => false
  | .ioRetry => false
  | .addrSetFail => true
  | .frameTooLarge => true
  | .invalidOp => true
  | .missingBuffer => true

/-- R156, R158, R163: RESULT with CODE, CAUSE and LOG written, TERR and RSV kept. -/
def setOutcome (r : Word) (code : Code) (cause : BitVec 4) : Word :=
  r.extractLsb' 9 23 ++ BitVec.ofBool (logPolicy code) ++ cause ++ codeBits code

/-- R123: RESULT.TERR <- RESULT.TERR or TSTATUS. -/
def orTerr (r : Word) (tstatus : Bool) : Word :=
  r.extractLsb' 10 22 ++ BitVec.ofBool (r.getLsbD 9 || tstatus) ++ r.extractLsb' 0 9

/-- R124, R125: the sync validator; one byte compared with SYNC_BYTE in all 8 bits. -/
def classify (sync s : Byte) : Code := if s = sync then .ok else .nack

/-- R158: the access layer's translation of a data transfer's engine code. -/
def translateCode : Code → Code
  | .nack => .ioRetry
  | c => c

/-- R111 checks 2 and 3 (R113, R114), after check 1 has found the operation's direction: the first failing check's
code, or none when all pass. The sum does not wrap (R13). -/
def engineCheck (maxFrame : Nat) (dir : Dir) (hasBuf : Bool) (len : BitVec 12) : Option Code :=
  if maxFrame < len.toNat + hdrSize dir then some .frameTooLarge
  else if dir = .read ∧ hasBuf = false then some .missingBuffer
  else none

end Sys2Proof.Machine
end

