-- ==== Sys2Proof/Machine/Memory.lean ====
section
/-! DEFINITION. The payload buffer space (spec/20_memory.md R61): a list of (index, byte) cells in one canonical form.
A cell is listed exactly when something has written it since the last reset; an unlisted index holds no value
(spec/10_state.md R42). What the machine sees of an unlisted byte is decided in Machine/Ops.lean. -/

namespace Sys2Proof.Machine

/-- The written cells of PAYLOAD, indices strictly rising. -/
abbrev Memory := List Host.Cell

/-- The canonical form: indices strictly rising. An unlisted index reads as no value, which no cell equals. -/
abbrev Memory.wf (m : Memory) : Prop := m.Pairwise (fun x y => x.1 < y.1)

/-- Every listed index lies below `size`. -/
abbrev Memory.below (m : Memory) (size : Nat) : Prop := ∀ c ∈ m, c.1 < size

/-- The byte at an index, none where nothing has written it. -/
def memGet : Memory → Nat → Option Byte
  | [], _ => none
  | (k, b) :: rest, a => if k = a then some b else memGet rest a

/-- The cells of a byte sequence that starts at index `a`. -/
def cellsFrom (a : Nat) : List Byte → Memory
  | [] => []
  | b :: bs => (a, b) :: cellsFrom (a + 1) bs

/-- R14: MemWrite(a, len(bs), bs). -/
def memPut (m : Memory) (a : Nat) (bs : List Byte) : Memory :=
  m.filter (fun c => decide (c.1 < a)) ++ cellsFrom a bs ++ m.filter (fun c => decide (a + bs.length ≤ c.1))

end Sys2Proof.Machine
end

