-- ==== Sys2Proof/Machine/State.lean ====
section
/-! DEFINITION. The state of the machine (spec/10_state.md): the core's registers, PAYLOAD, the ports, and the state the
other agents of R20 hold at the ports; then the reasons a step can stop, and the state after reset (R42). -/

namespace Sys2Proof.Machine

/-- Why the machine stops. -/
inductive Fault where
  /-- An access to an index at or above PAYLOAD_BUF_BYTES, which R61 says no rule makes. Raised by a completion or a
  delivery in a state that no run reaches. Safe. -/
  | payloadOutOfRange
  deriving DecidableEq, Repr

/-- Why a step has no meaning. -/
inductive Refusal where
  /-- An instruction without a meaning yet. Raised by no arm of this model. Safe. -/
  | notModelled (mnemonic : String)
  /-- R21, R225, I10: a malformed request is refused at the port and never accepted. Raised by a requester's offer and
  by an acceptance. Safe. -/
  | malformedRequest
  /-- R88, R224, R227: a transport result that is not of the shape of its transaction. Raised by a completion. Safe. -/
  | malformedAnswer
  deriving DecidableEq, Repr

/-- One requester's side of its request and response ports (R21, R22). -/
structure ReqPort where
  /-- The request it offers, held until accepted (R21). -/
  offer : Option Request
  /-- Its command was accepted and it has not taken the response (R21, R226). -/
  waiting : Bool
  /-- The last response it took. -/
  taken : Option Response
  deriving DecidableEq, Repr

/-- A requester that offers nothing and waits for nothing. -/
def ReqPort.free : ReqPort := { offer := none, waiting := false, taken := none }

/-- The whole machine. -/
structure State where
  /-- R4, R5, R10: the design-time parameters. -/
  params : Params
  /-- R25, R220: the input RESET (true = asserted, Detached). -/
  rst : Bool
  /-- R27: SEQ, register 2. -/
  seq : Seq
  /-- R28: TP, register 3. -/
  tp : Bool
  /-- R30: CMD, register 0. -/
  cmd : Word
  /-- R31: OWNER, register 1, an index of `ownerWidth` bits. -/
  owner : Nat
  /-- R32: ENGREQ, register 4. -/
  engreq : Word
  /-- R33: HDR_TX, register 5. -/
  hdrTx : HdrReg
  /-- R34: HDR_RX, register 6. -/
  hdrRx : HdrReg
  /-- R35: RESULT, register 7. -/
  result : Word
  /-- R36, R61: PAYLOAD. -/
  payload : Memory
  /-- The model's own: numbers the resets, so that each leaves PAYLOAD with unspecified bytes of its own (R36, I7). -/
  payloadEpoch : Nat
  /-- R23, R39: the transaction on the transport port, held by the transport while TP = 1. -/
  txn : Option Txn
  /-- The model's own: the transport's answer while the completion step consumes it (R123). -/
  answer : Option TransportResult
  /-- R21, R22: the requesters' ports, one for each of NUM_REQ. -/
  ports : List ReqPort
  /-- R24: the notifications sent on the power port and not yet received, oldest first. -/
  power : List Notification
  /-- The model's own: the requester that the acceptance step chooses (R150). -/
  grant : Nat
  /-- The model's own: counts the free choices made (R150, I6). -/
  choices : Nat
  /-- The model's own: the coming moves of the agents of R20, any list at all. -/
  moves : List Move
  deriving DecidableEq, Repr

/-- R42, R222: the machine right after reset, RESET deasserted. No request is offered and no move is scheduled. -/
def State.reset : State :=
  { params := Params.default
    rst := false
    seq := .idle
    tp := false
    cmd := 0x00000000#32
    owner := 0
    engreq := 0x00000000#32
    hdrTx := { b0 := 0x00#8, b1 := 0x00#8 }
    hdrRx := { b0 := 0x00#8, b1 := 0x00#8 }
    result := 0x00000000#32
    payload := []
    payloadEpoch := 0
    txn := none
    answer := none
    ports := [ReqPort.free, ReqPort.free]
    power := []
    grant := 0
    choices := 0
    moves := [] }

end Sys2Proof.Machine
end

