-- ==== Sys2Proof/Machine/Ops.lean ====
section
/-! DEFINITION. The named operations over the state: the payload buffer (spec/20_memory.md R61), the power port (R24),
the acceptance step (spec/41_block_access.md R151), the engine transfer (spec/40_frame_engine.md R111 to R127), the
outcome of a transfer (R156, R158), the error entry and the return from it (spec/60_exceptions.md R199, R200) and reset
(spec/70_reset_and_hazards.md R220). -/

namespace Sys2Proof.Machine

/-- An outcome of this machine. -/
abbrev Result := Host.Outcome State Fault Refusal

/-! The payload buffer. -/

/-- PAYLOAD[a]: the byte written since the last reset, else an unspecified byte (R36, I7, log entry 1). -/
def State.readByte (s : State) (a : Nat) : Byte :=
  match memGet s.payload a with
  | some b => b
  | none => Config.unwrittenByte s.payloadEpoch a

/-- `n` bytes of PAYLOAD from index `a`. -/
def State.readFrom (s : State) (a : Nat) : Nat → List Byte
  | 0 => []
  | n + 1 => s.readByte a :: s.readFrom (a + 1) n

/-- R14: MemRead(a, n); none where it would reach PAYLOAD_BUF_BYTES (R61). -/
def State.memRead (s : State) (a n : Nat) : Option (List Byte) :=
  if a + n ≤ payloadBytes s.params then some (s.readFrom a n) else none

/-- R14: MemWrite(a, len(bs), bs); none where it would reach PAYLOAD_BUF_BYTES (R61). -/
def State.memWrite (s : State) (a : Nat) (bs : List Byte) : Option State :=
  if a + bs.length ≤ payloadBytes s.params then some { s with payload := memPut s.payload a bs } else none

/-! The power port. -/

/-- R14, R24: send one notification; nothing is waited for. -/
def State.emit (s : State) (n : Notification) : State := { s with power := s.power ++ [n] }

/-! Results, the error entry and the return from it. -/

/-- R199, R163: post a result and enter RESP. CODE, CAUSE and LOG are written, TERR is kept, nothing else is saved. -/
def State.post (s : State) (code : Code) (cause : BitVec 4) : State :=
  { s with result := setOutcome s.result code cause, seq := .resp }

/-- R156, R158: post the result of a BLK_WRITE or BLK_READ and send its IdleDec. -/
def State.finish (s : State) (code : Code) (cause : BitVec 4) : State := (s.post code cause).emit .idleDec

/-- R156: the outcome of a positioning write. On OK the read request of R157 takes its place. -/
def State.afterPositioning (s : State) (ecode : Code) : State :=
  if ecode = .ok then { s with engreq := readRequest s.cmd, seq := .data }
  else s.finish .addrSetFail (codeBits ecode)

/-- R158: the outcome of a data transfer. -/
def State.afterData (s : State) (ecode : Code) : State := s.finish (translateCode ecode) 0#4

/-- R110: the engine outcome is handed to the access layer in the step that produces it. -/
def State.handOutcome (s : State) (ecode : Code) : State :=
  match s.seq with
  | .setaddr => s.afterPositioning ecode
  | .data => s.afterData ecode
  | .idle => s
  | .resp => s

/-- R22: RDATA, MemRead(0, CMD.LEN) for a BLK_READ whose result is OK, else empty. -/
def State.rdata (s : State) : Option (List Byte) :=
  if cmdOp s.cmd = 1#2 ∧ resCode s.result = codeBits .ok then s.memRead 0 (cmdLen s.cmd).toNat else some []

/-- R22: the response on the response port of OWNER while SEQ = RESP. -/
def State.response (s : State) : Option Response := s.rdata.map fun d => { resultw := s.result, rdata := d }

/-- The port of requester `r` after `f`. -/
def State.updatePort (s : State) (r : Nat) (f : ReqPort → ReqPort) : State := { s with ports := s.ports.modify r f }

/-- R161, R200: the owner takes the response and the core returns to IDLE; nothing is restored. -/
def State.deliver (s : State) (resp : Response) : State :=
  { s.updatePort s.owner (fun p => { p with waiting := false, taken := some resp }) with seq := .idle }

/-! The acceptance step. -/

/-- The request that requester `r` offers. -/
def State.offerOf (s : State) (r : Nat) : Option Request :=
  match s.ports[r]? with
  | some p => p.offer
  | none => none

/-- R150, R221, R122: the acceptance step's own conditions, but for the offer itself. -/
def State.canAccept (s : State) : Bool := !s.rst && !s.tp && s.seq == .idle

/-- R151: whether the acceptance step latches the write data. -/
def latches (p : Params) (cmdw : Word) : Bool :=
  cmdOp cmdw == 0#2 && decide ((cmdLen cmdw).toNat + hdrSize .write ≤ p.maxFrame)

/-- R151: what the acceptance step writes for every command, before the entry actions: CMD, OWNER, RESULT, the latched
write data, and the request is consumed. -/
def State.latch (s : State) (cmdw : Word) (wdata : List Byte) : State :=
  { s.updatePort s.grant (fun p => { p with offer := none, waiting := true }) with
    cmd := cmdw
    owner := s.grant
    result := 0x00000000#32
    payload := if latches s.params cmdw then memPut s.payload 0 wdata else s.payload }

/-- R150, R151: the acceptance step for the command word `cmdw` of the chosen requester, whose port gives WDATA. Where
it is not enabled it does not happen (R15, R152). -/
def State.accept (s : State) (cmdw : Word) (entry : State → State) : Result :=
  if s.canAccept then
    match s.offerOf s.grant with
    | none => .next s
    | some req =>
      if Request.wf { cmdw := cmdw, wdata := req.wdata } then .next (entry (s.latch cmdw req.wdata))
      else .refused .malformedRequest
  else .next s

/-- R154: the entry actions of BLK_WRITE. -/
def State.enterWrite (s : State) : State := { s.emit .activeInc with engreq := writeRequest s.cmd, seq := .data }

/-- R155: the entry actions of BLK_READ. -/
def State.enterRead (s : State) : State := { s.emit .activeInc with engreq := setaddrRequest s.cmd, seq := .setaddr }

/-- R163: the entry actions of CMD_RESERVED; no notification is sent. -/
def State.enterReserved (s : State) : State := s.post .invalidOp 0#4

/-! The engine transfer. -/

/-- R111, R123: SEQ is SETADDR or DATA. -/
def State.transferring (s : State) : Bool := s.seq == .setaddr || s.seq == .data

/-- R111, R221: the start step is enabled. -/
def State.canStart (s : State) : Bool := !s.rst && s.transferring && !s.tp

/-- R123, R221: the completion step is enabled, an answer of the transport apart. -/
def State.canComplete (s : State) : Bool := !s.rst && s.transferring && s.tp

/-- R115 to R117: both header registers are cleared, then HDR_TX is populated. -/
def State.populateHeader (s : State) (h : HdrReg) : State :=
  { s with hdrTx := h, hdrRx := { b0 := 0x00#8, b1 := 0x00#8 } }

/-- R122: issue Transport(TXN); TP <- 1. -/
def State.issue (s : State) (t : Txn) : State := { s with txn := some t, tp := true }

/-- R119: the bytes a write's data phase transmits, MemRead(0, LEN); nothing is read where there is no such phase. -/
def State.txBytes (s : State) (dir : Dir) (hasBuf : Bool) (len : BitVec 12) : Option (List Byte) :=
  if dir = .write ∧ dataPhase hasBuf len then s.memRead 0 len.toNat else some []

/-- R111, R115 to R122: the start step of an engine transfer whose operation is legal. -/
def State.startTransfer (s : State) (dir : Dir) (hasBuf : Bool) (addr : BitVec 9) (len : BitVec 12) : Result :=
  match engineCheck s.params.maxFrame dir hasBuf len with
  | some code => .next (s.handOutcome code)
  | none =>
    match s.txBytes dir hasBuf len with
    | none => .fault .payloadOutOfRange
    | some bytes =>
      .next ((s.populateHeader (headerFor dir addr)).issue (txnFor dir (headerFor dir addr) hasBuf len bytes))

/-- R123: TP <- 0, the transaction leaves the port, HDR_RX takes the received header, and TSTATUS is recorded. -/
def State.receive (s : State) (dir : Dir) (res : TransportResult) : State :=
  { s with
    tp := false
    txn := none
    answer := none
    hdrRx := match dir with
      | .write => { b0 := rxByte res 0 0, b1 := rxByte res 0 1 }
      | .read => { b0 := rxByte res 0 0, b1 := s.hdrRx.b1 }
    result := orTerr s.result res.tstatus }

/-- R127: a read's data phase is written to PAYLOAD, whatever the outcome. -/
def State.storeData (s : State) (dir : Dir) (hasBuf : Bool) (len : BitVec 12) (res : TransportResult) : Option State :=
  if dir = .read ∧ dataPhase hasBuf len then s.memWrite 0 (res.rx.getD 1 []) else some s

/-- R123: the completion step of an engine transfer for the answer `res`. -/
def State.completeTransfer (s : State) (dir : Dir) (hasBuf : Bool) (len : BitVec 12) (res : TransportResult) : Result :=
  if res.wf (rxLengths dir hasBuf len) then
    match (s.receive dir res).storeData dir hasBuf len res with
    | none => .fault .payloadOutOfRange
    | some t => .next (t.handOutcome (classify t.params.syncByte t.hdrRx.b0))
  else .refused .malformedAnswer

/-- R110: an engine transfer, its start step or its completion step, whichever is enabled; where neither is, nothing
happens (R15, R122: the wait for the transport has no bound). -/
def State.transfer (s : State) (dir : Dir) (hasBuf : Bool) (addr : BitVec 9) (len : BitVec 12) : Result :=
  if s.canStart then s.startTransfer dir hasBuf addr len
  else if s.canComplete then
    match s.answer with
    | none => .next s
    | some res => s.completeTransfer dir hasBuf len res
  else .next s

/-- R132, R111: a start step whose first check fails with `code`. -/
def State.rejectTransfer (s : State) (code : Code) : Result :=
  if s.canStart then .next (s.handOutcome code) else .next s

/-- R115 to R117: the header encoder, which works only within a start step. -/
def State.encodeHeader (s : State) (h : HdrReg) : Result :=
  if s.canStart then .next (s.populateHeader h) else .next s

/-! Reset. -/

/-- R220: asserting RESET. The registers take the values of R42, an outstanding transaction is abandoned, a pending
response is discarded, nothing is sent; offered requests stay offered (RS3) and every requester may offer again (R204). -/
def State.assertReset (s : State) : State :=
  { s with
    rst := true
    seq := .idle
    tp := false
    cmd := 0x00000000#32
    owner := 0
    engreq := 0x00000000#32
    hdrTx := { b0 := 0x00#8, b1 := 0x00#8 }
    hdrRx := { b0 := 0x00#8, b1 := 0x00#8 }
    result := 0x00000000#32
    payload := []
    payloadEpoch := s.payloadEpoch + 1
    txn := none
    answer := none
    ports := s.ports.map (fun p => { p with waiting := false }) }

/-- R222: deasserting RESET. -/
def State.deassertReset (s : State) : State := { s with rst := false }

end Sys2Proof.Machine
end

