-- ==== Sys2Proof/Machine/Commands.lean ====
section
/-! DEFINITION. The meanings of the command words (spec/41_block_access.md section 5). -/

namespace Sys2Proof.Machine

/-- R154: BLK_WRITE, its acceptance and entry actions; the engine transfer XFER_WRITE in ENGREQ does the rest. -/
def execBlkWrite (rsv0 : BitVec 6) (addr : BitVec 9) (rsv1 : BitVec 3) (len : BitVec 12) (s : State) : Result :=
  s.accept (cmdWord 0#2 rsv0 addr rsv1 len) State.enterWrite

/-- R155: BLK_READ, its acceptance and entry actions; the positioning write and the read transfer follow in ENGREQ. -/
def execBlkRead (rsv0 : BitVec 6) (addr : BitVec 9) (rsv1 : BitVec 3) (len : BitVec 12) (s : State) : Result :=
  s.accept (cmdWord 1#2 rsv0 addr rsv1 len) State.enterRead

/-- R163: CMD_RESERVED, accepted and completed at once with INVALID_OP. -/
def execCmdReserved (op0 : BitVec 1) (rsv0 : BitVec 6) (addr : BitVec 9) (rsv1 : BitVec 3) (len : BitVec 12)
    (s : State) : Result :=
  s.accept (cmdWord (1#1 ++ op0) rsv0 addr rsv1 len) State.enterReserved

end Sys2Proof.Machine
end

