-- ==== Sys2Proof/Machine/Engine.lean ====
section
/-! DEFINITION. The meanings of the engine requests (spec/40_frame_engine.md section 6). Each covers both steps of its
transfer: the start step while TP = 0, the completion step once the transport answers. -/

namespace Sys2Proof.Machine

/-- R130: XFER_WRITE. -/
def execXferWrite (hasBuf : Bool) (addr : BitVec 9) (len : BitVec 12) (s : State) : Result :=
  s.transfer .write hasBuf addr len

/-- R131: XFER_READ; ADDR is in the encoding and not read (R117). -/
def execXferRead (hasBuf : Bool) (addr : BitVec 9) (len : BitVec 12) (s : State) : Result :=
  s.transfer .read hasBuf addr len

/-- R132: XFER_INVALID, rejected with INVALID_OP before any bus activity, whatever its other fields. -/
def execXferInvalid (s : State) : Result := s.rejectTransfer .invalidOp

end Sys2Proof.Machine
end

