-- ==== Sys2Proof/Machine/Wire.lean ====
section
/-! DEFINITION. The meanings of the wire rows: the headers the encoder generates within a start step
(spec/40_frame_engine.md R115 to R117) and the sync byte that acknowledges a transaction (R123 to R125). -/

namespace Sys2Proof.Machine

/-- R116: HDR_WRITE, the write header [0x00, ADDR mod 256]. -/
def execHdrWrite (addrLo : Byte) (s : State) : Result := s.encodeHeader { b0 := 0x00#8, b1 := addrLo }

/-- R116: HDR_WRITE_EXT, the write header [0x02, ADDR mod 256]. -/
def execHdrWriteExt (addrLo : Byte) (s : State) : Result := s.encodeHeader { b0 := 0x02#8, b1 := addrLo }

/-- R117: HDR_READ, the read header 0x01; HDR_TX[1] keeps the cleared value. -/
def execHdrRead (s : State) : Result := s.encodeHeader { b0 := 0x01#8, b1 := 0x00#8 }

/-- R123 to R126: SYNC_ACK, the completion of the outstanding transaction whose first received byte is SYNC_BYTE; the
rest of the answer is the transport's. The request is the one in ENGREQ. -/
def execSyncAck (s : State) : Result :=
  if s.canComplete then
    match s.answer, opDir (engOp s.engreq) with
    | some res, some dir =>
      s.completeTransfer dir (engHasBuf s.engreq) (engLen s.engreq) (withSyncByte res s.params.syncByte)
    | _, _ => .next s
  else .next s

end Sys2Proof.Machine
end

