-- ==== Sys2Proof/Machine/Dispatch.lean ====
section
/-! DEFINITION. One arm for each row of spec/opcode_table.json. -/

namespace Sys2Proof.Machine

def exec (i : Instr) (s : State) : Host.Outcome State Fault Refusal :=
  match i with
  | .blkWrite rsv0 addr rsv1 len => Sys2Proof.Machine.execBlkWrite rsv0 addr rsv1 len s
  | .blkRead rsv0 addr rsv1 len => Sys2Proof.Machine.execBlkRead rsv0 addr rsv1 len s
  | .cmdReserved op0 rsv0 addr rsv1 len => Sys2Proof.Machine.execCmdReserved op0 rsv0 addr rsv1 len s
  | .xferWrite hasBuf _ addr _ len => Sys2Proof.Machine.execXferWrite hasBuf addr len s
  | .xferRead hasBuf _ addr _ len => Sys2Proof.Machine.execXferRead hasBuf addr len s
  | .xferInvalid _ _ _ _ _ _ => Sys2Proof.Machine.execXferInvalid s
  | .hdrWrite addrLo => Sys2Proof.Machine.execHdrWrite addrLo s
  | .hdrWriteExt addrLo => Sys2Proof.Machine.execHdrWriteExt addrLo s
  | .hdrRead => Sys2Proof.Machine.execHdrRead s
  | .syncAck => Sys2Proof.Machine.execSyncAck s

end Sys2Proof.Machine
end

