-- ==== Sys2Proof/Machine/Agents.lean ====
section
/-! DEFINITION. The steps of the agents (spec/10_state.md R20): the core's own step, which fetches the command of the
chosen requester or the engine request in ENGREQ, and the moves of the requesters, the transport, the power collaborator
and the lifecycle collaborator. A move that is not enabled does not happen (R15). -/

namespace Sys2Proof.Machine

/-- R20, R150, R111: the core's step. In IDLE it accepts the request of requester `pick`; in SETADDR or DATA it runs
the engine request; while RESET is asserted (R221), while TP = 1 (R122) and in RESP (R161) it has no step. -/
def coreStep (pick : Nat) (s : State) : Result :=
  if s.rst || s.tp then .next s
  else
    match s.seq with
    | .idle =>
      match s.offerOf pick with
      | some req => exec (decodeCmd req.cmdw) { s with grant := pick }
      | none => .next s
    | .setaddr => exec (decodeEng s.engreq) s
    | .data => exec (decodeEng s.engreq) s
    | .resp => .next s

/-- R123: the transport answers the outstanding transaction, and the first received byte is decoded (R125): SYNC_ACK
acknowledges it, any other byte leaves its completion to the engine request in ENGREQ. An answer to no transaction, such
as one that reset abandoned, is never consumed (R220, I11). -/
def transportStep (res : TransportResult) (s : State) : Result :=
  if s.canComplete then
    match decodeRx s.params.syncByte (rxByte res 0 0) with
    | .ok i => exec i { s with answer := some res }
    | .error _ => exec (decodeEng s.engreq) { s with answer := some res }
  else .next s

/-- R21: requester `r` offers a request; it may not while it offers another or waits for a response. An offer may also
be made while RESET is asserted, where R221 names only the core's steps (DESIGN CHOICE, log entry 21). -/
def offerStep (r : Nat) (req : Request) (s : State) : Result :=
  match s.ports[r]? with
  | none => .next s
  | some p =>
    if p.offer.isSome || p.waiting then .next s
    else if req.wf then .next (s.updatePort r (fun q => { q with offer := some req }))
    else .refused .malformedRequest

/-- R161: the delivery step, enabled for OWNER while SEQ = RESP. -/
def takeStep (r : Nat) (s : State) : Result :=
  if !s.rst && s.seq == .resp && r == s.owner then
    match s.response with
    | none => .fault .payloadOutOfRange
    | some resp => .next (s.deliver resp)
  else .next s

/-- R24: the power collaborator receives the oldest notification and answers nothing. It may also do so while RESET is
asserted (DESIGN CHOICE, log entry 21). -/
def powerStep (s : State) : Result := .next { s with power := s.power.tail }

/-- One move of one agent (R20). -/
def moveStep (m : Move) (s : State) : Result :=
  match m with
  | .offer r req => offerStep r req s
  | .core pick => coreStep pick s
  | .transport res => transportStep res s
  | .take r => takeStep r s
  | .power => powerStep s
  | .resetAssert => .next s.assertReset
  | .resetDeassert => .next s.deassertReset

/-- The requesters from index `r` on that offer a well-formed request (R150). -/
def offeringFrom (r : Nat) : List ReqPort → List Nat
  | [] => []
  | p :: rest =>
    match p.offer with
    | some req => if req.wf then r :: offeringFrom (r + 1) rest else offeringFrom (r + 1) rest
    | none => offeringFrom (r + 1) rest

/-- The core alone: with no move scheduled for anyone, it takes its own enabled step. Among several pending requests the
choice is free (R150, I6, log entry 4). -/
def ownStep (s : State) : Result :=
  match s.seq with
  | .idle =>
    match offeringFrom 0 s.ports with
    | [] => .next s
    | [r] => coreStep r s
    | r :: rest =>
      coreStep ((r :: rest).getD (Config.arbitration s.choices % (rest.length + 1)) r) { s with choices := s.choices + 1 }
  | _ => coreStep 0 s

/-! Where a program's first instruction is put (log entry 5). -/

/-- A request of `cmdw` on port 0, with zero bytes as its write data, and the core's step next. -/
def State.placeCommand (s : State) (cmdw : Word) : State :=
  { s with
    rst := false
    seq := .idle
    tp := false
    txn := none
    answer := none
    ports :=
      { ReqPort.free with
        offer := some
          { cmdw := cmdw
            wdata := if cmdOp cmdw = 0#2 then List.replicate (cmdLen cmdw).toNat 0x00#8 else [] } } :: s.ports.tail
    moves := .core 0 :: s.moves }

/-- A header-only engine request whose start step generates the wanted header, and the core's step next. -/
def State.placeHeader (s : State) (engreq : Word) : State :=
  { s with
    rst := false
    seq := .data
    tp := false
    txn := none
    answer := none
    engreq := engreq
    moves := .core 0 :: s.moves }

/-- A header-only write outstanding, and the transport's answer with that first byte next. -/
def State.placeAnswer (s : State) (b : Byte) : State :=
  { s with
    rst := false
    seq := .data
    tp := true
    txn := some [headerPhase .write s.hdrTx]
    answer := none
    engreq := engWord 0#2 false 0#5 0#9 0#3 0#12
    moves := .transport { tstatus := false, rx := [[b, 0x00#8]] } :: s.moves }

/-- The instruction `i` placed where the next step runs it. -/
def State.place (s : State) (i : Instr) : State :=
  match i with
  | .blkWrite rsv0 addr rsv1 len => s.placeCommand (cmdWord 0#2 rsv0 addr rsv1 len)
  | .blkRead rsv0 addr rsv1 len => s.placeCommand (cmdWord 1#2 rsv0 addr rsv1 len)
  | .cmdReserved op0 rsv0 addr rsv1 len => s.placeCommand (cmdWord (1#1 ++ op0) rsv0 addr rsv1 len)
  | .xferWrite hasBuf rsv addr rsvHi len => s.placeHeader (engWord 0#2 hasBuf rsv addr rsvHi len)
  | .xferRead hasBuf rsv addr rsvHi len => s.placeHeader (engWord 1#2 hasBuf rsv addr rsvHi len)
  | .xferInvalid op0 hasBuf rsv addr rsvHi len => s.placeHeader (engWord (1#1 ++ op0) hasBuf rsv addr rsvHi len)
  | .hdrWrite addrLo => s.placeHeader (engWord 0#2 false 0#5 (0#1 ++ addrLo) 0#3 0#12)
  | .hdrWriteExt addrLo => s.placeHeader (engWord 0#2 false 0#5 (1#1 ++ addrLo) 0#3 0#12)
  | .hdrRead => s.placeHeader (engWord 1#2 true 0#5 0#9 0#3 0#12)
  | .syncAck => s.placeAnswer s.params.syncByte

end Sys2Proof.Machine
end

