-- ==== Sys2Proof/Machine/Step.lean ====
section
/-! DEFINITION. One step of the machine (spec/10_state.md R20): the agent whose move is next takes it; with no move
scheduled, the core takes its own. -/

namespace Sys2Proof.Machine

def step (s : State) : Host.Outcome State Fault Refusal :=
  match s.moves with
  | m :: rest => moveStep m { s with moves := rest }
  | [] => ownStep s

/-- The state with the instruction of the table's word `w` of `nbits` bits where the next step runs it; a word that is
no instruction changes nothing. -/
def State.withFetchWord (s : State) (nbits w : Nat) : State :=
  match decodeTableWord nbits w with
  | some i => s.place i
  | none => s

end Sys2Proof.Machine
end

