-- ==== Sys2Proof/Safety.lean ====
section
/-! DEFINITION. The terms in which claims speak of safe states and runs: the invariant of the machine, the results a
command can have, and the core's own registers. -/

namespace Sys2Proof.Machine

/-- The next state of an outcome that has one. -/
def nextState? (o : Result) : Option State :=
  match o with
  | .next s => some s
  | .fault _ => none
  | .refused _ => none

/-- R42: the core's registers hold their reset values and PAYLOAD holds no written byte. -/
def State.AtReset (s : State) : Prop :=
  s.seq = .idle ∧ s.tp = false ∧ s.cmd = 0#32 ∧ s.owner = 0 ∧ s.engreq = 0#32 ∧
    s.hdrTx = { b0 := 0#8, b1 := 0#8 } ∧ s.hdrRx = { b0 := 0#8, b1 := 0#8 } ∧ s.result = 0#32 ∧ s.payload = []

/-- The bytes 0 to n-1 of PAYLOAD have been written since the last reset (R36). -/
def State.written (s : State) (n : Nat) : Prop := ∀ a, a < n → (memGet s.payload a).isSome = true

/-- The result words of 95_test_vectors.md section 4.2, the only ones reachable (R97). -/
def reachableResults : List Word :=
  [0x000#32, 0x200#32, 0x005#32, 0x205#32, 0x116#32, 0x316#32, 0x103#32, 0x303#32, 0x102#32]

/-- The outstanding transaction is the one that ENGREQ asks for, its checks passed, and HDR_TX holds its header
(R28, R121, R122). -/
def State.Outstanding (s : State) : Prop :=
  ∃ dir bytes, opDir (engOp s.engreq) = some dir ∧
    engineCheck s.params.maxFrame dir (engHasBuf s.engreq) (engLen s.engreq) = none ∧
    s.txBytes dir (engHasBuf s.engreq) (engLen s.engreq) = some bytes ∧
    s.hdrTx = headerFor dir (engAddr s.engreq) ∧
    s.txn = some (txnFor dir s.hdrTx (engHasBuf s.engreq) (engLen s.engreq) bytes)

/-- The invariant of the machine between steps. -/
structure State.Inv (s : State) : Prop where
  /-- R5, R10, R224 -/
  params_wf : s.params.wf = true
  /-- R21: one port for each requester -/
  ports_length : s.ports.length = s.params.numReq
  /-- R31 -/
  owner_lt : s.owner < s.params.numReq
  /-- the canonical form of PAYLOAD -/
  payload_wf : Memory.wf s.payload
  /-- R61: no index at or above PAYLOAD_BUF_BYTES -/
  payload_below : Memory.below s.payload (payloadBytes s.params)
  /-- an answer is consumed in the step that gives it (R123) -/
  no_answer : s.answer = none
  /-- R220: while RESET is asserted the registers hold their reset values -/
  reset_holds : s.rst = true → s.AtReset
  /-- R27, R155: SETADDR runs the positioning write of a BLK_READ -/
  setaddr_request : s.seq = .setaddr → cmdOp s.cmd = 1#2 ∧ s.engreq = setaddrRequest s.cmd
  /-- R27, R154, R157: DATA runs the write of a BLK_WRITE or the read of a BLK_READ -/
  data_request : s.seq = .data →
    (cmdOp s.cmd = 0#2 ∧ s.engreq = writeRequest s.cmd) ∨ (cmdOp s.cmd = 1#2 ∧ s.engreq = readRequest s.cmd)
  /-- R28, R70: TP = 1 only while a transfer of SETADDR or DATA is outstanding -/
  outstanding : s.tp = true → s.transferring = true ∧ s.Outstanding
  /-- R28, R72: no transaction is on the port while TP = 0 -/
  no_txn : s.tp = false → s.txn = none
  /-- R97 -/
  result_reachable : s.result ∈ reachableResults
  /-- R35, R151: until the result is posted only TERR can be set -/
  result_running : s.transferring = true → s.result = 0x000#32 ∨ s.result = 0x200#32
  /-- R36, R151: the data of a BLK_WRITE that fits is latched before it is read -/
  data_latched : s.seq = .data → cmdOp s.cmd = 0#2 → (cmdLen s.cmd).toNat + 2 ≤ s.params.maxFrame →
    s.written (cmdLen s.cmd).toNat
  /-- R36, R22: the data a response delivers has been received -/
  data_received : s.seq = .resp → cmdOp s.cmd = 1#2 → resCode s.result = codeBits .ok →
    (cmdLen s.cmd).toNat ≤ payloadBytes s.params ∧ s.written (cmdLen s.cmd).toNat
  /-- R96: HDR_TX holds a cleared, write or read header -/
  header_legal : s.hdrTx.b0 = 0x00#8 ∨ s.hdrTx.b0 = 0x02#8 ∨ s.hdrTx = { b0 := 0x01#8, b1 := 0x00#8 }
  /-- R152: the requester that waits is the owner of the command in progress -/
  lock : ∀ (r : Nat) (p : ReqPort), s.ports[r]? = some p → (p.waiting = true ↔ s.seq ≠ .idle ∧ r = s.owner)
  /-- R21: an offered request is well formed, and no requester offers one while it waits -/
  offers : ∀ (r : Nat) (p : ReqPort) (req : Request), s.ports[r]? = some p → p.offer = some req →
    req.wf = true ∧ p.waiting = false

end Sys2Proof.Machine
end

