-- ==== Sys2Proof/Certificates/Slice0/Obligations.lean ====
section
/-! DEFINITION. The statements for the provers. Each docstring names the rule of spec/ or the sections it formalises. -/

open Sys2Proof Sys2Proof.Machine

/-! ## Encodings -/

/-- spec/30_encoding.md sections 1 to 5: encoding an instruction and decoding the words in their place gives it back,
every operand at every value, reserved fields included. -/
def Obligations.DecodeInvertsEncode : Prop :=
  ∀ (sync : Byte) (i : Instr), decode sync (encode sync i) = .ok i

/-- spec/30_encoding.md sections 1 to 5: words that decode to an instruction are exactly the words it encodes to. -/
def Obligations.EncodeInvertsDecode : Prop :=
  ∀ (sync : Byte) (img : Image) (i : Instr), decode sync img = .ok i → encode sync i = img

/-- R80, R81: the command decode by CMDW[1:0], with the fields of the layout. -/
def Obligations.CommandWordDecodesByOp : Prop :=
  ∀ w : Word,
    (w.extractLsb' 0 2 = 0b00#2 → decodeCmd w =
      .blkWrite (w.extractLsb' 2 6) (w.extractLsb' 8 9) (w.extractLsb' 17 3) (w.extractLsb' 20 12)) ∧
    (w.extractLsb' 0 2 = 0b01#2 → decodeCmd w =
      .blkRead (w.extractLsb' 2 6) (w.extractLsb' 8 9) (w.extractLsb' 17 3) (w.extractLsb' 20 12)) ∧
    (w.extractLsb' 0 2 = 0b10#2 → decodeCmd w =
      .cmdReserved 0#1 (w.extractLsb' 2 6) (w.extractLsb' 8 9) (w.extractLsb' 17 3) (w.extractLsb' 20 12)) ∧
    (w.extractLsb' 0 2 = 0b11#2 → decodeCmd w =
      .cmdReserved 1#1 (w.extractLsb' 2 6) (w.extractLsb' 8 9) (w.extractLsb' 17 3) (w.extractLsb' 20 12))

/-- R83: the engine's operation decode by ENGREQ.OP, and bit 0 of header byte 0 equals ENGREQ.OP[0]. -/
def Obligations.EngineRequestDecodesByOp : Prop :=
  ∀ w : Word,
    (w.extractLsb' 0 2 = 0b00#2 → ∃ rsv rsvHi, decodeEng w =
      .xferWrite (w.getLsbD 2) rsv (w.extractLsb' 8 9) rsvHi (w.extractLsb' 20 12)) ∧
    (w.extractLsb' 0 2 = 0b01#2 → ∃ rsv rsvHi, decodeEng w =
      .xferRead (w.getLsbD 2) rsv (w.extractLsb' 8 9) rsvHi (w.extractLsb' 20 12)) ∧
    (w.getLsbD 1 = true → ∃ op0 rsv rsvHi, decodeEng w =
      .xferInvalid op0 (w.getLsbD 2) rsv (w.extractLsb' 8 9) rsvHi (w.extractLsb' 20 12)) ∧
    (∀ dir addr, opDir (engOp w) = some dir → (headerFor dir addr).b0.getLsbD 0 = w.getLsbD 0)

/-- spec/95_test_vectors.md sections 3.1 and 4.1, spec/30_encoding.md R84, R85, R89: one word of each format. -/
def Obligations.WordsOfEveryFormatDecode : Prop :=
  decode 0x62#8 (.cmd 0x00210A00#32) = .ok (.blkWrite 0#6 266#9 0#3 2#12) ∧
  decode 0x62#8 (.cmd 0x00400A01#32) = .ok (.blkRead 0#6 10#9 0#3 4#12) ∧
  decode 0x62#8 (.cmd 0x00700503#32) = .ok (.cmdReserved 1#1 0#6 5#9 0#3 7#12) ∧
  decode 0x62#8 (.engreq 0x00400A04#32) = .ok (.xferWrite true 0#5 10#9 0#3 4#12) ∧
  decode 0x62#8 (.engreq 0x32000001#32) = .ok (.xferRead false 0#5 0#9 0#3 800#12) ∧
  decode 0x62#8 (.engreq 0x00000002#32) = .ok (.xferInvalid 0#1 false 0#5 0#9 0#3 0#12) ∧
  decode 0x62#8 (.tx [0x00#8, 0xFF#8]) = .ok (.hdrWrite 0xFF#8) ∧
  decode 0x62#8 (.tx [0x02#8, 0x2C#8]) = .ok (.hdrWriteExt 0x2C#8) ∧
  decode 0x62#8 (.tx [0x01#8]) = .ok .hdrRead ∧
  decode 0x62#8 (.rx 0x62#8) = .ok .syncAck

/-- R84: the two bytes of the write header of every address. -/
def Obligations.WriteHeaderOfEveryAddress : Prop :=
  ∀ addr : BitVec 9,
    headerBytes .write (headerFor .write addr) =
      [if 256 ≤ addr.toNat then 0x02#8 else 0x00#8, BitVec.ofNat 8 (addr.toNat % 256)]

/-- R93, R98 (spec/30_encoding.md sections 3 and 5): a decoder on the peripheral's side reads, from the header bytes the
core transmits, the row of the opcode table that the encoder generated, and finds the data phase after it. -/
def Obligations.TransmittedHeaderDecodesToItsRow : Prop :=
  ∀ (dir : Dir) (addr : BitVec 9) (payload : List Byte),
    decodeHeader (headerBytes dir (headerFor dir addr) ++ payload) = .ok (headerRow dir addr, payload)

/-! ## The checks of a start step -/

/-- R113: the frame-size check, for any MAX_FRAME and at its default, whatever HAS_BUF is. -/
def Obligations.FrameSizeCheckLimits : Prop :=
  ∀ (maxFrame : Nat) (dir : Dir) (hasBuf : Bool) (len : BitVec 12),
    (engineCheck maxFrame dir hasBuf len = some .frameTooLarge ↔ ¬(len.toNat + hdrSize dir ≤ maxFrame)) ∧
    (engineCheck 768 .write hasBuf len = some .frameTooLarge ↔ 767 ≤ len.toNat) ∧
    (engineCheck 768 .read hasBuf len = some .frameTooLarge ↔ 768 ≤ len.toNat)

/-- R114: once the size check has passed, the buffer check fails only for a Read with HAS_BUF = 0. -/
def Obligations.BufferCheckOnlyForReads : Prop :=
  ∀ (maxFrame : Nat) (dir : Dir) (hasBuf : Bool) (len : BitVec 12), len.toNat + hdrSize dir ≤ maxFrame →
    (engineCheck maxFrame dir hasBuf len = some .missingBuffer ↔ dir = .read ∧ hasBuf = false) ∧
    (engineCheck maxFrame dir hasBuf len = none ↔ ¬(dir = .read ∧ hasBuf = false))

/-! ## Commands: what the acceptance step writes -/

/-- R151, R153, R154 (spec/41_block_access.md sections 1, 2, 5): the accepted BLK_WRITE, the whole next state. -/
def Obligations.BlkWriteAccepted : Prop :=
  ∀ (rsv0 : BitVec 6) (addr : BitVec 9) (rsv1 : BitVec 3) (len : BitVec 12) (s : State) (req : Request),
    s.rst = false → s.tp = false → s.seq = .idle → s.offerOf s.grant = some req → req.wdata.length = len.toNat →
    exec (.blkWrite rsv0 addr rsv1 len) s = .next { s with
      cmd := cmdWord 0#2 rsv0 addr rsv1 len
      owner := s.grant
      result := 0#32
      payload := if len.toNat + 2 ≤ s.params.maxFrame then memPut s.payload 0 req.wdata else s.payload
      engreq := engWord 0#2 true 0#5 addr 0#3 len
      seq := .data
      power := s.power ++ [.activeInc]
      ports := s.ports.modify s.grant (fun p => { p with offer := none, waiting := true }) }

/-- R151, R153, R155 (spec/41_block_access.md sections 1, 2, 5): the accepted BLK_READ, the whole next state. -/
def Obligations.BlkReadAccepted : Prop :=
  ∀ (rsv0 : BitVec 6) (addr : BitVec 9) (rsv1 : BitVec 3) (len : BitVec 12) (s : State) (req : Request),
    s.rst = false → s.tp = false → s.seq = .idle → s.offerOf s.grant = some req → req.wdata = [] →
    exec (.blkRead rsv0 addr rsv1 len) s = .next { s with
      cmd := cmdWord 1#2 rsv0 addr rsv1 len
      owner := s.grant
      result := 0#32
      engreq := engWord 0#2 false 0#5 addr 0#3 0#12
      seq := .setaddr
      power := s.power ++ [.activeInc]
      ports := s.ports.modify s.grant (fun p => { p with offer := none, waiting := true }) }

/-- R163: CMD_RESERVED completes at once with INVALID_OP and LOG = 1, whatever its fields; ENGREQ, the header registers,
PAYLOAD, TP and the power port are unchanged; the owner then takes the result with no data, which releases the lock. -/
def Obligations.CmdReservedCompletesAtOnce : Prop :=
  ∀ (op0 : BitVec 1) (rsv0 : BitVec 6) (addr : BitVec 9) (rsv1 : BitVec 3) (len : BitVec 12) (s : State) (req : Request),
    s.rst = false → s.tp = false → s.seq = .idle → s.offerOf s.grant = some req → req.wdata = [] →
    ∃ t, exec (.cmdReserved op0 rsv0 addr rsv1 len) s = .next t ∧
      t = { s with
        cmd := cmdWord (1#1 ++ op0) rsv0 addr rsv1 len
        owner := s.grant
        result := 0x00000102#32
        seq := .resp
        ports := s.ports.modify s.grant (fun p => { p with offer := none, waiting := true }) } ∧
      takeStep s.grant t = .next { t with
        seq := .idle
        ports := t.ports.modify s.grant
          (fun p => { p with waiting := false, taken := some { resultw := 0x00000102#32, rdata := [] } }) }

/-- R21, R225 and I10 (spec/93_implementation_defined.md): a malformed request is refused and never accepted. That the
refusal ends the step is the model's form of it (log entry 9). -/
def Obligations.MalformedRequestsRefused : Prop :=
  ∀ (op0 : BitVec 1) (rsv0 : BitVec 6) (addr : BitVec 9) (rsv1 : BitVec 3) (len : BitVec 12) (s : State) (req : Request),
    s.rst = false → s.tp = false → s.seq = .idle → s.offerOf s.grant = some req →
    (req.wdata.length ≠ len.toNat → exec (.blkWrite rsv0 addr rsv1 len) s = .refused .malformedRequest) ∧
    (req.wdata ≠ [] → exec (.blkRead rsv0 addr rsv1 len) s = .refused .malformedRequest ∧
      exec (.cmdReserved op0 rsv0 addr rsv1 len) s = .refused .malformedRequest)

/-- R152 (spec/41_block_access.md section 1): while SEQ is not IDLE no command is accepted; the state is unchanged, the
model's form of a step that does not happen (log entry 7). -/
def Obligations.NoCommandAcceptedOutsideIdle : Prop :=
  ∀ (op0 : BitVec 1) (rsv0 : BitVec 6) (addr : BitVec 9) (rsv1 : BitVec 3) (len : BitVec 12) (s : State),
    s.seq ≠ .idle →
    exec (.blkWrite rsv0 addr rsv1 len) s = .next s ∧ exec (.blkRead rsv0 addr rsv1 len) s = .next s ∧
      exec (.cmdReserved op0 rsv0 addr rsv1 len) s = .next s

/-! ## Engine transfers: the start step -/

/-- R116, R119: the start step of XFER_WRITE whose frame fits, the whole next state. PAYLOAD bytes that nothing has
written are free values, and the statement holds for every one of them. -/
def Obligations.XferWriteStarts : Prop :=
  ∀ (hasBuf : Bool) (rsv : BitVec 5) (addr : BitVec 9) (rsvHi : BitVec 3) (len : BitVec 12) (s : State),
    s.rst = false → s.tp = false → (s.seq = .setaddr ∨ s.seq = .data) → len.toNat + 2 ≤ s.params.maxFrame →
    exec (.xferWrite hasBuf rsv addr rsvHi len) s = .next { s with
      hdrTx := { b0 := 0b000000#6 ++ BitVec.ofBool (addr.getLsbD 8) ++ 0b0#1, b1 := addr.extractLsb' 0 8 }
      hdrRx := { b0 := 0x00#8, b1 := 0x00#8 }
      tp := true
      txn := some
        (if hasBuf = true ∧ 0 < len.toNat then
          [{ txb := some [0b000000#6 ++ BitVec.ofBool (addr.getLsbD 8) ++ 0b0#1, addr.extractLsb' 0 8],
             rxl := true, n := 2 },
           { txb := some (s.readFrom 0 len.toNat), rxl := false, n := len.toNat }]
        else
          [{ txb := some [0b000000#6 ++ BitVec.ofBool (addr.getLsbD 8) ++ 0b0#1, addr.extractLsb' 0 8],
             rxl := true, n := 2 }]) }

/-- R117, R120: the start step of XFER_READ whose checks pass, the whole next state; ADDR plays no part. -/
def Obligations.XferReadStarts : Prop :=
  ∀ (rsv : BitVec 5) (addr : BitVec 9) (rsvHi : BitVec 3) (len : BitVec 12) (s : State),
    s.rst = false → s.tp = false → (s.seq = .setaddr ∨ s.seq = .data) → len.toNat + 1 ≤ s.params.maxFrame →
    exec (.xferRead true rsv addr rsvHi len) s = .next { s with
      hdrTx := { b0 := 0x01#8, b1 := 0x00#8 }
      hdrRx := { b0 := 0x00#8, b1 := 0x00#8 }
      tp := true
      txn := some
        (if 0 < len.toNat then
          [{ txb := some [0x01#8], rxl := true, n := 1 }, { txb := none, rxl := true, n := len.toNat }]
        else [{ txb := some [0x01#8], rxl := true, n := 1 }]) }

/-- R111, R199 (spec/40_frame_engine.md section 1, spec/60_exceptions.md section 4): a start step whose check fails
hands the code of the first failing check over and touches neither the header registers nor PAYLOAD nor the bus. -/
def Obligations.ContractViolationsTouchNoBus : Prop :=
  ∀ (hasBuf : Bool) (rsv : BitVec 5) (addr : BitVec 9) (rsvHi : BitVec 3) (len : BitVec 12) (s : State),
    s.rst = false → s.tp = false → (s.seq = .setaddr ∨ s.seq = .data) →
    (s.params.maxFrame < len.toNat + 2 →
      exec (.xferWrite hasBuf rsv addr rsvHi len) s = .next (s.handOutcome .frameTooLarge)) ∧
    (s.params.maxFrame < len.toNat + 1 →
      exec (.xferRead hasBuf rsv addr rsvHi len) s = .next (s.handOutcome .frameTooLarge)) ∧
    (len.toNat + 1 ≤ s.params.maxFrame →
      exec (.xferRead false rsv addr rsvHi len) s = .next (s.handOutcome .missingBuffer)) ∧
    (∀ code, code ≠ .ok → ∃ r p, s.handOutcome code = { s with result := r, seq := .resp, power := p })

/-- R132: XFER_INVALID is rejected with INVALID_OP in its start step, whatever its other fields; in DATA that is the
posted result (R158), in SETADDR the cause of an address-set failure (R156). Derived: the rule's remark on what the
access layer never writes is the statement DataRequestIsNeverInvalid. -/
def Obligations.XferInvalidRejected : Prop :=
  ∀ (op0 : BitVec 1) (hasBuf : Bool) (rsv : BitVec 5) (addr : BitVec 9) (rsvHi : BitVec 3) (len : BitVec 12) (s : State),
    s.rst = false → s.tp = false →
    (s.seq = .data → exec (.xferInvalid op0 hasBuf rsv addr rsvHi len) s = .next { s with
      result := setOutcome s.result .invalidOp 0#4, seq := .resp, power := s.power ++ [.idleDec] }) ∧
    (s.seq = .setaddr → exec (.xferInvalid op0 hasBuf rsv addr rsvHi len) s = .next { s with
      result := setOutcome s.result .addrSetFail 2#4, seq := .resp, power := s.power ++ [.idleDec] })

/-- R132, R157 (spec/40_frame_engine.md section 6, spec/41_block_access.md section 3): while a transfer is in progress
ENGREQ holds a Write or a Read, and a read with its buffer, so neither INVALID_OP nor MISSING_BUFFER comes from a
command. -/
def Obligations.DataRequestIsNeverInvalid : Prop :=
  ∀ s : State, s.Inv → s.transferring = true →
    ∃ dir, opDir (engOp s.engreq) = some dir ∧ (dir = .read → engHasBuf s.engreq = true)

/-! ## Engine transfers: the completion step -/

/-- R123, R124 (spec/40_frame_engine.md sections 4 and 5): the completion of XFER_WRITE, for every answer of its shape;
the outcome follows the sync byte alone. -/
def Obligations.XferWriteCompletes : Prop :=
  ∀ (hasBuf : Bool) (rsv : BitVec 5) (addr : BitVec 9) (rsvHi : BitVec 3) (len : BitVec 12) (s : State) (b0 b1 : Byte)
    (tstatus : Bool),
    s.rst = false → s.tp = true → (s.seq = .setaddr ∨ s.seq = .data) →
    s.answer = some { tstatus := tstatus, rx := [[b0, b1]] } →
    exec (.xferWrite hasBuf rsv addr rsvHi len) s = .next (State.handOutcome
      { s with
        tp := false
        txn := none
        answer := none
        hdrRx := { b0 := b0, b1 := b1 }
        result := orTerr s.result tstatus }
      (if b0 = s.params.syncByte then .ok else .nack))

/-- R123, R127 (spec/40_frame_engine.md sections 4 and 5): the completion of XFER_READ, with and without a data phase;
the received bytes are written to PAYLOAD whatever the outcome. -/
def Obligations.XferReadCompletes : Prop :=
  ∀ (hasBuf : Bool) (rsv : BitVec 5) (addr : BitVec 9) (rsvHi : BitVec 3) (len : BitVec 12) (s : State) (b0 : Byte)
    (bytes : List Byte) (tstatus : Bool),
    s.rst = false → s.tp = true → (s.seq = .setaddr ∨ s.seq = .data) →
    (hasBuf = true → 0 < len.toNat → bytes.length = len.toNat → len.toNat ≤ payloadBytes s.params →
      s.answer = some { tstatus := tstatus, rx := [[b0], bytes] } →
      exec (.xferRead hasBuf rsv addr rsvHi len) s = .next (State.handOutcome
        { s with
          tp := false
          txn := none
          answer := none
          hdrRx := { b0 := b0, b1 := s.hdrRx.b1 }
          payload := memPut s.payload 0 bytes
          result := orTerr s.result tstatus }
        (if b0 = s.params.syncByte then .ok else .nack))) ∧
    ((hasBuf = false ∨ len.toNat = 0) → s.answer = some { tstatus := tstatus, rx := [[b0]] } →
      exec (.xferRead hasBuf rsv addr rsvHi len) s = .next (State.handOutcome
        { s with
          tp := false
          txn := none
          answer := none
          hdrRx := { b0 := b0, b1 := s.hdrRx.b1 }
          result := orTerr s.result tstatus }
        (if b0 = s.params.syncByte then .ok else .nack)))

/-- R156: the outcome of a positioning write. The last clause is the rule's remark that its size check always passes, so
that NACK is the only cause. -/
def Obligations.PositioningOutcome : Prop :=
  (∀ (s : State) (ecode : Code), s.seq = .setaddr →
    (ecode = .ok → s.handOutcome ecode =
      { s with engreq := engWord 0b01#2 true 0#5 (cmdAddr s.cmd) 0#3 (cmdLen s.cmd), seq := .data }) ∧
    (ecode ≠ .ok → ∃ r, s.handOutcome ecode = { s with result := r, seq := .resp, power := s.power ++ [.idleDec] } ∧
      resCode r = 6#4 ∧ resCause r = codeBits ecode ∧ resLog r = true ∧ resTerr r = resTerr s.result)) ∧
  (∀ p : Params, 2 ≤ p.maxFrame → engineCheck p.maxFrame .write false 0#12 = none)

/-- R158: the translation of a data transfer's outcome. The last clause is the rule's remark on the codes that cannot
arise. The value of the policy for MISSING_BUFFER is the model's (log entry 8); the statement names only the policy. -/
def Obligations.DataTransferOutcome : Prop :=
  (∀ (s : State) (ecode : Code), s.seq = .data →
    ∃ r, s.handOutcome ecode = { s with result := r, seq := .resp, power := s.power ++ [.idleDec] } ∧
      resCode r = (match ecode with
        | .ok => 0#4
        | .nack => 5#4
        | c => codeBits c) ∧
      resCause r = 0#4 ∧ resLog r = logPolicy (translateCode ecode) ∧ resTerr r = resTerr s.result) ∧
  (∀ (s : State), s.Inv → s.seq = .data → s.tp = false → ∀ t, exec (decodeEng s.engreq) s = .next t → t.seq = .resp →
    resCode t.result = 3#4)

/-- R123, R125 (spec/40_frame_engine.md sections 4 and 5): SYNC_ACK ends the outstanding transfer of ENGREQ with OK,
whatever TSTATUS and the other received bytes are. That the row stands for the first received byte, so that SYNC_BYTE
takes the place of whatever byte `b0` the answer holds there, is the model's choice (log entry 11); the rules give this
next state for the answers with `b0 = s.params.syncByte`, the only ones for which the transport's step runs SYNC_ACK. -/
def Obligations.SyncAckEndsTransferWithOk : Prop :=
  ∀ (s : State) (dir : Dir) (b0 : Byte) (more : List Byte) (rest : List (List Byte)) (tstatus : Bool),
    s.rst = false → s.tp = true → (s.seq = .setaddr ∨ s.seq = .data) → opDir (engOp s.engreq) = some dir →
    s.answer = some { tstatus := tstatus, rx := (b0 :: more) :: rest } →
    TransportResult.wf { tstatus := tstatus, rx := (b0 :: more) :: rest }
      (rxLengths dir (engHasBuf s.engreq) (engLen s.engreq)) = true →
    (engLen s.engreq).toNat ≤ payloadBytes s.params →
    exec .syncAck s = .next (State.handOutcome
      { s with
        tp := false
        txn := none
        answer := none
        hdrRx := { b0 := s.params.syncByte, b1 := if dir = .write then more.headD 0#8 else s.hdrRx.b1 }
        payload := if dir = .read ∧ rest ≠ [] then memPut s.payload 0 (rest.headD []) else s.payload
        result := orTerr s.result tstatus } .ok)

/-- R123, R125 (spec/40_frame_engine.md sections 4 and 5): when the first received byte is SYNC_BYTE, running SYNC_ACK
and running the engine request in ENGREQ are the same step. -/
def Obligations.SyncAckAgreesWithEngineRequest : Prop :=
  ∀ (s : State) (res : TransportResult), s.tp = true → s.answer = some res →
    rxByte res 0 0 = s.params.syncByte → exec .syncAck s = exec (decodeEng s.engreq) s

/-- R126, R194: a transport failure does not change the engine outcome: it changes RESULT.TERR and nothing else. -/
def Obligations.TransportFailureOnlySetsTerr : Prop :=
  ∀ (s : State) (dir : Dir) (hasBuf : Bool) (len : BitVec 12) (rx : List (List Byte)) (t : State),
    s.completeTransfer dir hasBuf len { tstatus := false, rx := rx } = .next t →
    ∃ r, s.completeTransfer dir hasBuf len { tstatus := true, rx := rx } = .next { t with result := r } ∧
      resTerr r = true ∧ resTerr t.result = resTerr s.result ∧ resCode r = resCode t.result ∧
      resCause r = resCause t.result ∧ resLog r = resLog t.result ∧ resRsv r = resRsv t.result

/-- R3, R125 (spec/00_scope.md section 1): the bytes of the data phase never change a header, a phase, a result or a
log indication: two answers that differ in RX[1] alone give next states that differ in PAYLOAD alone. -/
def Obligations.ReceivedDataNeverJudged : Prop :=
  ∀ (s : State) (dir : Dir) (hasBuf : Bool) (len : BitVec 12) (tstatus : Bool) (rx0 : List Byte)
    (bytes bytes' : List Byte) (t : State),
    bytes.length = bytes'.length →
    s.completeTransfer dir hasBuf len { tstatus := tstatus, rx := [rx0, bytes] } = .next t →
    ∃ m, s.completeTransfer dir hasBuf len { tstatus := tstatus, rx := [rx0, bytes'] } = .next { t with payload := m }

/-! ## Wire rows -/

/-- R115, R116, R117 (spec/40_frame_engine.md section 3): the header encoder. Where a start step is enabled the row of an
address's header writes HDR_TX as the rules say, over cleared header registers, and nothing else. That a header row runs
as a step of its own is the model's choice (log entry 11). -/
def Obligations.HeaderRowsWriteHdrTx : Prop :=
  ∀ (s : State) (addr : BitVec 9) (lo : Byte), s.rst = false → s.tp = false → (s.seq = .setaddr ∨ s.seq = .data) →
    exec (headerRow .write addr) s = .next { s with
      hdrTx := { b0 := 0b000000#6 ++ BitVec.ofBool (addr.getLsbD 8) ++ 0b0#1, b1 := addr.extractLsb' 0 8 }
      hdrRx := { b0 := 0x00#8, b1 := 0x00#8 } } ∧
    exec (headerRow .read addr) s = .next { s with
      hdrTx := { b0 := 0x01#8, b1 := 0x00#8 }, hdrRx := { b0 := 0x00#8, b1 := 0x00#8 } } ∧
    exec (.hdrWrite lo) s = .next { s with
      hdrTx := { b0 := 0x00#8, b1 := lo }, hdrRx := { b0 := 0x00#8, b1 := 0x00#8 } } ∧
    exec (.hdrWriteExt lo) s = .next { s with
      hdrTx := { b0 := 0x02#8, b1 := lo }, hdrRx := { b0 := 0x00#8, b1 := 0x00#8 } } ∧
    exec .hdrRead s = .next { s with
      hdrTx := { b0 := 0x01#8, b1 := 0x00#8 }, hdrRx := { b0 := 0x00#8, b1 := 0x00#8 } }

/-- R115, R121, R122 (spec/40_frame_engine.md sections 3 and 4): a start step whose checks pass is the header row of its
address, then one transaction issued whose first phase transmits that header. -/
def Obligations.StartStepRunsItsHeaderRow : Prop :=
  ∀ (dir : Dir) (hasBuf : Bool) (rsv : BitVec 5) (addr : BitVec 9) (rsvHi : BitVec 3) (len : BitVec 12) (s : State),
    s.rst = false → s.tp = false → (s.seq = .setaddr ∨ s.seq = .data) →
    engineCheck s.params.maxFrame dir hasBuf len = none →
    ∃ t phase more,
      exec (headerRow dir addr) s = .next t ∧
      exec (match dir with
        | .write => .xferWrite hasBuf rsv addr rsvHi len
        | .read => .xferRead hasBuf rsv addr rsvHi len) s = .next { t with txn := some (phase :: more), tp := true } ∧
      phase = { txb := some (headerBytes dir t.hdrTx), rxl := true, n := hdrSize dir }

/-! ## Results and flags -/

/-- R159: the logging policy, and RESULT.LOG is what it says in every posted result. -/
def Obligations.LogBitFollowsPolicy : Prop :=
  logPolicy .ok = false ∧ logPolicy .ioRetry = false ∧ logPolicy .addrSetFail = true ∧
  logPolicy .frameTooLarge = true ∧ logPolicy .invalidOp = true ∧
  ∀ (r : Word) (code : Code) (cause : BitVec 4), resLog (setOutcome r code cause) = logPolicy code

/-- R86, R123, R199 (spec/30_encoding.md section 1.4, spec/10_state.md R35): posting a result writes CODE and CAUSE and
keeps TERR and RSV; recording TSTATUS makes TERR the sticky OR and keeps the other fields. -/
def Obligations.ResultWordUpdates : Prop :=
  (∀ (r : Word) (code : Code) (cause : BitVec 4),
    resCode (setOutcome r code cause) = codeBits code ∧ resCause (setOutcome r code cause) = cause ∧
    resTerr (setOutcome r code cause) = resTerr r ∧ resRsv (setOutcome r code cause) = resRsv r) ∧
  (∀ (r : Word) (tstatus : Bool),
    resTerr (orTerr r tstatus) = (resTerr r || tstatus) ∧ resCode (orTerr r tstatus) = resCode r ∧
    resCause (orTerr r tstatus) = resCause r ∧ resLog (orTerr r tstatus) = resLog r ∧
    resRsv (orTerr r tstatus) = resRsv r)

/-- R97: no reachable result word has a reserved code, a cause other than 0 and 1, a reserved bit, or NACK or
MISSING_BUFFER as its code. -/
def Obligations.ResultCodesInvariant : Prop :=
  ∀ s : State, s.Inv →
    (resCode s.result).toNat ≤ 6 ∧ (resCause s.result = 0#4 ∨ resCause s.result = 1#4) ∧ resRsv s.result = 0#22 ∧
    resCode s.result ≠ 1#4 ∧ resCode s.result ≠ 4#4

/-! ## The payload buffer -/

/-- R61, R74, R151 (spec/20_memory.md section 1): after an accepted BLK_WRITE that fits, PAYLOAD reads as the write data
at 0 to LEN-1 and as before elsewhere; one that does not fit leaves every byte as it was. -/
def Obligations.BlkWritePayloadFrame : Prop :=
  ∀ (rsv0 : BitVec 6) (addr : BitVec 9) (rsv1 : BitVec 3) (len : BitVec 12) (s t : State) (req : Request),
    s.rst = false → s.tp = false → s.seq = .idle → s.offerOf s.grant = some req → req.wdata.length = len.toNat →
    exec (.blkWrite rsv0 addr rsv1 len) s = .next t →
    (len.toNat + 2 ≤ s.params.maxFrame →
      (∀ a, a < len.toNat → some (t.readByte a) = req.wdata[a]?) ∧ (∀ a, len.toNat ≤ a → t.readByte a = s.readByte a)) ∧
    (s.params.maxFrame < len.toNat + 2 → ∀ a, t.readByte a = s.readByte a)

/-- R127 (spec/40_frame_engine.md section 5): after a completed XFER_READ, PAYLOAD reads as the received bytes at 0 to
LEN-1 and as before elsewhere. -/
def Obligations.XferReadPayloadFrame : Prop :=
  ∀ (rsv : BitVec 5) (addr : BitVec 9) (rsvHi : BitVec 3) (len : BitVec 12) (s t : State) (b0 : Byte)
    (bytes : List Byte) (tstatus : Bool),
    s.canComplete = true → 0 < len.toNat → s.answer = some { tstatus := tstatus, rx := [[b0], bytes] } →
    exec (.xferRead true rsv addr rsvHi len) s = .next t →
    (∀ a, a < len.toNat → some (t.readByte a) = bytes[a]?) ∧ (∀ a, len.toNat ≤ a → t.readByte a = s.readByte a)

/-- R75 (spec/20_memory.md section 5): the instructions and forms that store nothing leave every byte of PAYLOAD as it
was, and every instruction leaves the parameters and the RESET input as they were. -/
def Obligations.OtherInstructionsKeepPayload : Prop :=
  ∀ (i : Instr) (s t : State), exec i s = .next t →
    t.params = s.params ∧ t.rst = s.rst ∧ t.moves = s.moves ∧
    (match i with
      | .blkWrite _ _ _ _ => True
      | .syncAck => (engOp s.engreq ≠ 1#2 ∨ dataPhase (engHasBuf s.engreq) (engLen s.engreq) = false) →
          ∀ a, t.readByte a = s.readByte a
      | .xferRead hasBuf _ _ _ len => (s.tp = false ∨ dataPhase hasBuf len = false) → ∀ a, t.readByte a = s.readByte a
      | _ => ∀ a, t.readByte a = s.readByte a)

/-- The model's canonical form of PAYLOAD (spec/20_memory.md R61, log entry 1): every step keeps it, whatever else the
state holds. -/
def Obligations.PayloadStaysCanonical : Prop :=
  ∀ s t : State, Memory.wf s.payload → step s = .next t → Memory.wf t.payload

/-- R61, R75 (spec/20_memory.md sections 1 and 5): PAYLOAD changes only by the acceptance of a BLK_WRITE, by the
completion of a read transfer, and by reset. -/
def Obligations.OnlyNamedStepsWritePayload : Prop :=
  ∀ s t : State, step s = .next t → t.payload ≠ s.payload →
    (s.seq = .idle ∧ cmdOp t.cmd = 0#2 ∧ t.seq = .data) ∨
    (∃ res rest, s.moves = .transport res :: rest ∧ s.tp = true ∧ engOp s.engreq = 1#2) ∨
    (∃ rest, s.moves = .resetAssert :: rest)

/-! ## The machine: the step, the lock, the transport, reset -/

/-- R20, R81, R83 (spec/10_state.md section 1, spec/30_encoding.md sections 1.1 and 1.2): the core's move runs the decoded
command of the chosen requester in IDLE and the decoded engine request in SETADDR and DATA. R123, R125
(spec/40_frame_engine.md sections 4 and 5): the transport's move completes the outstanding transfer; that it runs the row
SYNC_ACK when the first received byte is SYNC_BYTE and the engine request otherwise is the model's choice (log entry 11).
That the moves stand in the state as a schedule is the model's choice too (log entry 2). -/
def Obligations.StepRunsDecodedInstruction : Prop :=
  (∀ (s : State) (pick : Nat) (rest : List Move) (req : Request) (i : Instr),
    s.moves = .core pick :: rest → s.rst = false → s.tp = false → s.seq = .idle → s.offerOf pick = some req →
    decode s.params.syncByte (.cmd req.cmdw) = .ok i →
    step s = exec i { s with moves := rest, grant := pick }) ∧
  (∀ (s : State) (pick : Nat) (rest : List Move) (i : Instr),
    s.moves = .core pick :: rest → s.rst = false → s.tp = false → (s.seq = .setaddr ∨ s.seq = .data) →
    decode s.params.syncByte (.engreq s.engreq) = .ok i →
    step s = exec i { s with moves := rest }) ∧
  (∀ (s : State) (res : TransportResult) (rest : List Move) (j : Instr),
    s.moves = .transport res :: rest → s.rst = false → s.tp = true → (s.seq = .setaddr ∨ s.seq = .data) →
    decode s.params.syncByte (.engreq s.engreq) = .ok j →
    step s = (if rxByte res 0 0 = s.params.syncByte then exec .syncAck { s with moves := rest, answer := some res }
      else exec j { s with moves := rest, answer := some res }))

/-- R150 (spec/41_block_access.md section 1) enables the acceptance step in these states and lets it take any one of the
pending requests. That the core takes it by itself when the schedule is empty is the model's choice (log entry 2), and
which request it then picks is the free choice of log entry 4. -/
def Obligations.CoreAloneAcceptsAPendingRequest : Prop :=
  ∀ s : State, s.Inv → s.moves = [] → s.rst = false → s.seq = .idle → (∃ r req, s.offerOf r = some req) →
    ∃ t req, step s = .next t ∧ s.offerOf t.owner = some req ∧ t.cmd = req.cmdw ∧ t.seq ≠ .idle

/-- R152, R161: the lock: SEQ returns to IDLE only by the owner's delivery step or by reset. -/
def Obligations.OnlyDeliveryOrResetReleasesLock : Prop :=
  ∀ s t : State, step s = .next t → s.seq ≠ .idle → t.seq = .idle →
    (s.seq = .resp ∧ ∃ rest, s.moves = .take s.owner :: rest) ∨ (∃ rest, s.moves = .resetAssert :: rest)

/-- R30, R31 (spec/10_state.md section 4): CMD and OWNER are written only by an acceptance step, and by reset. -/
def Obligations.OnlyAcceptanceWritesCmdAndOwner : Prop :=
  ∀ s t : State, step s = .next t → (t.cmd ≠ s.cmd ∨ t.owner ≠ s.owner) →
    (s.rst = false ∧ s.seq = .idle ∧ t.seq ≠ .idle ∧ t.result ∈ [0x000#32, 0x102#32]) ∨
    (∃ rest, s.moves = .resetAssert :: rest)

/-- R28, R70 (spec/20_memory.md section 5): from a state of the invariant, a transaction is issued only while TP = 0, in
SETADDR or DATA; it stays as it is while TP = 1; and TP returns to 0 only when the transport's result is consumed, or by
reset. -/
def Obligations.OneTransactionOutstanding : Prop :=
  ∀ s t : State, s.Inv → step s = .next t →
    (s.tp = false → t.tp = true → s.transferring = true ∧ t.seq = s.seq ∧ t.txn.isSome = true ∧ t.owner = s.owner) ∧
    (s.tp = true → t.tp = true → t.txn = s.txn ∧ t.seq = s.seq ∧ t.hdrTx = s.hdrTx) ∧
    (s.tp = true → t.tp = false →
      (∃ res rest, s.moves = .transport res :: rest) ∨ (∃ rest, s.moves = .resetAssert :: rest))

/-- R122, R203 (spec/40_frame_engine.md section 4): the wait for the transport: while TP = 1 the core has no step, for as
long as no answer comes (log entries 2 and 7 say how the model writes the wait). -/
def Obligations.CoreWaitsForTheTransport : Prop :=
  ∀ (s : State) (pick : Nat), s.tp = true →
    coreStep pick s = .next s ∧ (s.seq ≠ .idle → s.moves = [] → ∀ k, Sys2Proof.core.run k s = .next s)

/-- R22 (spec/10_state.md section 2): the response is offered to OWNER only, while SEQ = RESP; RDATA is PAYLOAD[0..LEN-1]
for a BLK_READ whose result is OK and empty otherwise. R161 (spec/41_block_access.md section 4): taking it sets SEQ to
IDLE. R21: the owner then waits no longer. R221: under RESET there is no delivery. That a delivery which is not enabled
leaves the whole state as it is, is the model's form of a step that does not happen (log entry 7, DEDUCED from R15). -/
def Obligations.DeliveryGivesOwnerItsResponse : Prop :=
  ∀ (r : Nat) (s : State),
    (s.rst = false → s.seq = .resp → r = s.owner →
      (cmdOp s.cmd = 1#2 → resCode s.result = 0#4 → (cmdLen s.cmd).toNat ≤ payloadBytes s.params →
        takeStep r s = .next { s with
          seq := .idle
          ports := s.ports.modify r (fun p => { p with
            waiting := false
            taken := some { resultw := s.result, rdata := s.readFrom 0 (cmdLen s.cmd).toNat } }) }) ∧
      (¬(cmdOp s.cmd = 1#2 ∧ resCode s.result = 0#4) →
        takeStep r s = .next { s with
          seq := .idle
          ports := s.ports.modify r (fun p => { p with
            waiting := false, taken := some { resultw := s.result, rdata := [] } }) })) ∧
    ((s.rst = true ∨ s.seq ≠ .resp ∨ r ≠ s.owner) → takeStep r s = .next s)

/-- R21 (spec/10_state.md section 2): a requester offers at most one request at a time, none while it waits for a
response, and the port refuses a malformed one. -/
def Obligations.RequestPortProtocol : Prop :=
  ∀ (r : Nat) (p : ReqPort) (req : Request) (s : State), s.ports[r]? = some p →
    ((p.offer ≠ none ∨ p.waiting = true) → offerStep r req s = .next s) ∧
    (p.offer = none → p.waiting = false → req.wf = true →
      ∃ t, offerStep r req s = .next t ∧ t.offerOf r = some req ∧ (∀ q, q ≠ r → t.ports[q]? = s.ports[q]?)) ∧
    (p.offer = none → p.waiting = false → req.wf = false → offerStep r req s = .refused .malformedRequest)

/-- R42: the reset values, and PAYLOAD holds no value. -/
def Obligations.ResetValues : Prop :=
  State.reset.seq = .idle ∧ State.reset.tp = false ∧ State.reset.cmd = 0x00000000#32 ∧ State.reset.owner = 0 ∧
  State.reset.engreq = 0x00000000#32 ∧ State.reset.hdrTx = { b0 := 0x00#8, b1 := 0x00#8 } ∧
  State.reset.hdrRx = { b0 := 0x00#8, b1 := 0x00#8 } ∧ State.reset.result = 0x00000000#32 ∧
  ∀ a, memGet State.reset.payload a = none

/-- R220: asserting RESET in any state gives the reset values, abandons an outstanding transaction, sends nothing on the
power port and no response on any response port, and whatever the transport answers afterwards is not consumed, neither
while RESET is asserted nor once it is deasserted (R220, I11). What an answer does once a new transaction is outstanding
is the platform's duty under R224 and the model's choice of log entry 15. -/
def Obligations.ResetTakesEffectInAnyState : Prop :=
  ∀ (s : State) (rest : List Move), s.moves = .resetAssert :: rest →
    ∃ t, step s = .next t ∧ t.rst = true ∧ t.AtReset ∧ t.txn = none ∧ t.power = s.power ∧ t.moves = rest ∧
      t.ports.map (fun p => (p.offer, p.taken)) = s.ports.map (fun p => (p.offer, p.taken)) ∧
      (∀ res, transportStep res t = .next t) ∧
      (∀ res, transportStep res t.deassertReset = .next t.deassertReset)

/-- R221: while RESET is asserted no step of the core is enabled: no acceptance, no engine step, no delivery. A step that
does not happen leaves the state as it is (R15, log entry 7). -/
def Obligations.NoStepWhileResetAsserted : Prop :=
  ∀ s : State, s.rst = true →
    (∀ i, exec i s = .next s) ∧ (∀ pick, coreStep pick s = .next s) ∧ (∀ res, transportStep res s = .next s) ∧
    (∀ r, takeStep r s = .next s)

/-- R4, R5, R10, R222 (spec/00_scope.md section 3): the design-time parameters never change. -/
def Obligations.ParametersAreFixed : Prop :=
  ∀ s t : State, step s = .next t → t.params = s.params

/-! ## The invariant -/

/-- The invariant holds at reset (spec/10_state.md section 8). -/
def Obligations.InvariantHoldsAtReset : Prop := State.reset.Inv

/-- The invariant of spec/10_state.md and spec/41_block_access.md (each field of `State.Inv` names its rule) is kept by
every step of every agent. -/
def Obligations.EveryStepKeepsInvariant : Prop :=
  ∀ s t : State, s.Inv → step s = .next t → t.Inv

/-- R61 (spec/20_memory.md section 1): from a state of the invariant no step accesses an index at or above
PAYLOAD_BUF_BYTES: the machine's only fault never occurs. -/
def Obligations.NoStepFaults : Prop :=
  ∀ s : State, s.Inv → ∀ f, step s ≠ .fault f

/-- R225, R227 (spec/70_reset_and_hazards.md section 3): from a state of the invariant a step is refused only for a
malformed request at a port or a transport result that has not the shape of the outstanding transaction. -/
def Obligations.OnlyMalformedInputsRefused : Prop :=
  ∀ (s : State) (r : Refusal), s.Inv → step s = .refused r →
    (r = .malformedRequest ∧ ∃ q req rest, s.moves = .offer q req :: rest ∧ req.wf = false) ∨
    (r = .malformedAnswer ∧ ∃ res rest txn, s.moves = .transport res :: rest ∧ s.txn = some txn ∧
      res.wf (txnRxLengths txn) = false)

/-- R5, R87, R121 (spec/00_scope.md section 3): every transaction on the transport port is a descriptor of one or two
phases, the first of them the header, and carries at most MAX_FRAME bytes. -/
def Obligations.TransactionsFitTheFrame : Prop :=
  ∀ (s : State) (txn : Txn), s.Inv → s.txn = some txn →
    txnWf txn = true ∧ (txn.map (·.n)).sum ≤ s.params.maxFrame ∧ (wireBytes txn).length = (txn.map (·.n)).sum

/-- R31 (spec/10_state.md section 4): OWNER fits its width. -/
def Obligations.OwnerFitsItsWidth : Prop :=
  ∀ s : State, s.Inv → s.owner < 2 ^ ownerWidth s.params

/-! ## Whole commands -/

/-- R154, R158, R160, R161 (spec/41_block_access.md sections 3 to 5): a BLK_WRITE that fits, from its offer to its
response, in four steps: one transaction of header and write data, ActiveInc and IdleDec once each, and a result that
follows the sync byte and records TSTATUS. -/
def Obligations.BlkWriteRunsToItsResponse : Prop :=
  ∀ (s : State) (r : Nat) (req : Request) (b0 b1 : Byte) (tstatus : Bool) (rest : List Move),
    s.Inv → s.rst = false → s.seq = .idle → s.offerOf r = some req → cmdOp req.cmdw = 0#2 →
    (cmdLen req.cmdw).toNat + 2 ≤ s.params.maxFrame →
    s.moves = .core r :: .core r :: .transport { tstatus := tstatus, rx := [[b0, b1]] } :: .take r :: rest →
    ∃ u t p,
      Sys2Proof.core.run 2 s = .next u ∧
      u.txn.map wireBytes =
        some ([writeHeader0 (cmdAddr req.cmdw), writeHeader1 (cmdAddr req.cmdw)] ++ req.wdata) ∧
      Sys2Proof.core.run 4 s = .next t ∧ t.seq = .idle ∧ t.tp = false ∧ t.moves = rest ∧
      t.power = s.power ++ [.activeInc, .idleDec] ∧ t.ports[r]? = some p ∧ p.offer = none ∧ p.waiting = false ∧
      p.taken = some
        { resultw := setOutcome (orTerr 0#32 tstatus) (if b0 = s.params.syncByte then .ok else .ioRetry) 0#4
          rdata := [] }

/-- R154, R191 (spec/41_block_access.md section 5): a BLK_WRITE too large for the frame ends with FRAME_TOO_LARGE in
three steps, with no transaction and with both notifications. -/
def Obligations.OversizeBlkWriteRejected : Prop :=
  ∀ (s : State) (r : Nat) (req : Request) (rest : List Move),
    s.Inv → s.rst = false → s.seq = .idle → s.offerOf r = some req → cmdOp req.cmdw = 0#2 →
    s.params.maxFrame < (cmdLen req.cmdw).toNat + 2 →
    s.moves = .core r :: .core r :: .take r :: rest →
    ∃ u t p,
      Sys2Proof.core.run 2 s = .next u ∧ u.tp = false ∧ u.txn = none ∧ u.hdrTx = s.hdrTx ∧ u.hdrRx = s.hdrRx ∧
      u.payload = s.payload ∧
      Sys2Proof.core.run 3 s = .next t ∧ t.seq = .idle ∧ t.power = s.power ++ [.activeInc, .idleDec] ∧
      t.ports[r]? = some p ∧ p.taken = some { resultw := 0x00000103#32, rdata := [] }

/-- R155 to R158, R160, R161 (spec/41_block_access.md sections 3 to 5): a BLK_READ that fits, whose positioning write is
acknowledged, from its offer to its response, in six steps: two transactions, and the received bytes delivered exactly
when the read's sync byte is right. -/
def Obligations.BlkReadRunsToItsResponse : Prop :=
  ∀ (s : State) (r : Nat) (req : Request) (c1 b0 : Byte) (bytes : List Byte) (ts1 ts2 : Bool) (rest : List Move),
    s.Inv → s.rst = false → s.seq = .idle → s.offerOf r = some req → cmdOp req.cmdw = 1#2 →
    (cmdLen req.cmdw).toNat + 1 ≤ s.params.maxFrame → bytes.length = (cmdLen req.cmdw).toNat →
    s.moves = .core r :: .core r :: .transport { tstatus := ts1, rx := [[s.params.syncByte, c1]] } :: .core r ::
      .transport { tstatus := ts2, rx := if bytes = [] then [[b0]] else [[b0], bytes] } :: .take r :: rest →
    ∃ u v t p,
      Sys2Proof.core.run 2 s = .next u ∧
      u.txn.map wireBytes = some [writeHeader0 (cmdAddr req.cmdw), writeHeader1 (cmdAddr req.cmdw)] ∧
      Sys2Proof.core.run 4 s = .next v ∧
      v.txn = some (if bytes = [] then [{ txb := some [0x01#8], rxl := true, n := 1 }]
        else [{ txb := some [0x01#8], rxl := true, n := 1 }, { txb := none, rxl := true, n := bytes.length }]) ∧
      Sys2Proof.core.run 6 s = .next t ∧ t.seq = .idle ∧ t.moves = rest ∧
      t.power = s.power ++ [.activeInc, .idleDec] ∧ t.ports[r]? = some p ∧ p.waiting = false ∧
      p.taken = some
        { resultw := setOutcome (orTerr 0#32 (ts1 || ts2)) (if b0 = s.params.syncByte then .ok else .ioRetry) 0#4
          rdata := if b0 = s.params.syncByte then bytes else [] }

/-- R156, R193 (spec/60_exceptions.md section 1): a positioning write without the sync byte ends the BLK_READ as an
address-set failure whose cause is NACK, and no read transfer is issued. -/
def Obligations.PositioningNackEndsBlkRead : Prop :=
  ∀ (s : State) (r : Nat) (req : Request) (c0 c1 : Byte) (tstatus : Bool) (rest : List Move),
    s.Inv → s.rst = false → s.seq = .idle → s.offerOf r = some req → cmdOp req.cmdw = 1#2 →
    c0 ≠ s.params.syncByte →
    s.moves = .core r :: .core r :: .transport { tstatus := tstatus, rx := [[c0, c1]] } :: .take r :: rest →
    ∃ u t p,
      Sys2Proof.core.run 3 s = .next u ∧ u.seq = .resp ∧ u.tp = false ∧ u.txn = none ∧
      Sys2Proof.core.run 4 s = .next t ∧ t.seq = .idle ∧ t.power = s.power ++ [.activeInc, .idleDec] ∧
      t.ports[r]? = some p ∧
      p.taken = some { resultw := if tstatus then 0x00000316#32 else 0x00000116#32, rdata := [] }

/-- R155, R191 (spec/41_block_access.md section 5): a BLK_READ too large for the frame sends its positioning write, then
ends with FRAME_TOO_LARGE; TERR tells how the positioning write went. -/
def Obligations.OversizeBlkReadRejectedAfterPositioning : Prop :=
  ∀ (s : State) (r : Nat) (req : Request) (c1 : Byte) (tstatus : Bool) (rest : List Move),
    s.Inv → s.rst = false → s.seq = .idle → s.offerOf r = some req → cmdOp req.cmdw = 1#2 →
    s.params.maxFrame < (cmdLen req.cmdw).toNat + 1 →
    s.moves = .core r :: .core r :: .transport { tstatus := tstatus, rx := [[s.params.syncByte, c1]] } :: .core r ::
      .take r :: rest →
    ∃ u v t p,
      Sys2Proof.core.run 2 s = .next u ∧ u.tp = true ∧
      Sys2Proof.core.run 4 s = .next v ∧ v.seq = .resp ∧ v.tp = false ∧ v.txn = none ∧ v.payload = s.payload ∧
      v.hdrTx = { b0 := writeHeader0 (cmdAddr req.cmdw), b1 := writeHeader1 (cmdAddr req.cmdw) } ∧
      Sys2Proof.core.run 5 s = .next t ∧ t.seq = .idle ∧ t.power = s.power ++ [.activeInc, .idleDec] ∧
      t.ports[r]? = some p ∧
      p.taken = some { resultw := if tstatus then 0x00000303#32 else 0x00000103#32, rdata := [] }
end

