-- ==== Sys2Proof/Laws/Flags.lean ====
section
/-! SUPPORT. The result word bit by bit after each of its two updates. -/

namespace Sys2Proof.Machine

/-- Bit `i` of a posted result, by the field it lies in. -/
theorem setOutcome_getLsbD (r : Word) (code : Code) (cause : BitVec 4) (i : Nat) :
    (setOutcome r code cause).getLsbD i =
      if i < 4 then (codeBits code).getLsbD i
      else if i < 8 then cause.getLsbD (i - 4)
      else if i < 9 then logPolicy code
      else (decide (i - 9 < 23) && r.getLsbD (9 + (i - 9))) := by
  show BitVec.getLsbD (w := 23 + 1 + 4 + 4)
    (r.extractLsb' 9 23 ++ BitVec.ofBool (logPolicy code) ++ cause ++ codeBits code) i = _
  simp only [BitVec.getLsbD_append, Nat.sub_sub, BitVec.getLsbD_ofBool, BitVec.getLsbD_extractLsb']
  split_ifs <;> first | rfl | omega | (rw [decide_eq_true (by omega), Bool.true_and])

/-- Bit `i` of a result after TSTATUS is recorded in it. -/
theorem orTerr_getLsbD (r : Word) (tstatus : Bool) (i : Nat) :
    (orTerr r tstatus).getLsbD i =
      if i < 9 then r.getLsbD i
      else if i < 10 then (r.getLsbD 9 || tstatus)
      else (decide (i - 10 < 22) && r.getLsbD (10 + (i - 10))) := by
  show BitVec.getLsbD (w := 22 + 1 + 9)
    (r.extractLsb' 10 22 ++ BitVec.ofBool (r.getLsbD 9 || tstatus) ++ r.extractLsb' 0 9) i = _
  simp only [BitVec.getLsbD_append, Nat.sub_sub, BitVec.getLsbD_ofBool, BitVec.getLsbD_extractLsb']
  split_ifs <;>
    first
    | omega
    | rfl
    | (rw [decide_eq_true (by omega), Bool.true_and, Nat.zero_add])
    | (rw [decide_eq_true (by omega), Bool.true_and])

end Sys2Proof.Machine
end

