-- ==== Sys2Proof/Laws/Memory.lean ====
section
/-! SUPPORT. The payload buffer: what a write leaves to read, that it keeps the canonical form, and that it stays within
the buffer. -/

namespace Sys2Proof.Machine

theorem mem_cellsFrom {c : Host.Cell} : ∀ {bs : List Byte} {a : Nat},
    c ∈ cellsFrom a bs → a ≤ c.1 ∧ c.1 < a + bs.length
  | [], _, h => by simp [cellsFrom] at h
  | b :: bs, a, h => by
    rcases List.mem_cons.mp h with rfl | h
    · simp
    · have := mem_cellsFrom h
      simp only [List.length_cons]; omega

theorem cellsFrom_wf : ∀ (a : Nat) (bs : List Byte), Memory.wf (cellsFrom a bs)
  | _, [] => List.Pairwise.nil
  | a, _ :: bs => List.Pairwise.cons (fun _ hc => (mem_cellsFrom hc).1) (cellsFrom_wf (a + 1) bs)

/-- A write keeps the canonical form. -/
theorem memPut_wf {m : Memory} (h : Memory.wf m) (a : Nat) (bs : List Byte) : Memory.wf (memPut m a bs) := by
  unfold memPut
  refine List.pairwise_append.mpr ⟨List.pairwise_append.mpr ⟨h.filter _, cellsFrom_wf a bs, ?_⟩, h.filter _, ?_⟩
  · intro x hx y hy
    have h1 : x.1 < a := by simpa using (List.mem_filter.mp hx).2
    have h2 := (mem_cellsFrom hy).1
    omega
  · intro x hx y hy
    have h1 : a + bs.length ≤ y.1 := by simpa using (List.mem_filter.mp hy).2
    rcases List.mem_append.mp hx with hx | hx
    · have h2 : x.1 < a := by simpa using (List.mem_filter.mp hx).2
      omega
    · have h2 := (mem_cellsFrom hx).2
      omega

/-- A write that fits keeps every index below the buffer's size. -/
theorem memPut_below {m : Memory} {size a : Nat} {bs : List Byte} (h : Memory.below m size)
    (hfit : a + bs.length ≤ size) : Memory.below (memPut m a bs) size := by
  intro c hc
  unfold memPut at hc
  rcases List.mem_append.mp hc with hc | hc
  · rcases List.mem_append.mp hc with hc | hc
    · exact h c (List.mem_filter.mp hc).1
    · have := (mem_cellsFrom hc).2
      omega
  · exact h c (List.mem_filter.mp hc).1

theorem memGet_append (m n : Memory) (a : Nat) : memGet (m ++ n) a = (memGet m a).or (memGet n a) := by
  induction m with
  | nil => simp [memGet]
  | cons c m ih =>
    obtain ⟨k, b⟩ := c
    by_cases h : k = a <;> simp [memGet, h, ih]

theorem memGet_none_of_forall {m : Memory} {a : Nat} (h : ∀ c ∈ m, c.1 ≠ a) : memGet m a = none := by
  induction m with
  | nil => rfl
  | cons c m ih =>
    obtain ⟨k, b⟩ := c
    have hk : k ≠ a := h (k, b) (by simp)
    simp only [memGet, if_neg hk]
    exact ih fun d hd => h d (by simp [hd])

theorem memGet_filter {m : Memory} {p : Nat → Bool} {a : Nat} (hp : p a = true) :
    memGet (m.filter (fun c => p c.1)) a = memGet m a := by
  induction m with
  | nil => rfl
  | cons c m ih =>
    obtain ⟨k, b⟩ := c
    by_cases hk : k = a
    · subst hk; simp [hp, memGet]
    · by_cases hpk : p k = true <;> simp [hpk, memGet, hk, ih]

theorem memGet_cellsFrom : ∀ (bs : List Byte) (a i : Nat), i < bs.length → memGet (cellsFrom a bs) (a + i) = bs[i]?
  | b :: bs, a, 0, _ => by simp [cellsFrom, memGet]
  | b :: bs, a, i + 1, h => by
    have h' : i < bs.length := by simpa using h
    have := memGet_cellsFrom bs (a + 1) i h'
    simp only [cellsFrom, memGet]
    rw [if_neg (by omega), show a + (i + 1) = a + 1 + i by omega, this]
    simp

/-- A read inside the written range gives the byte written. -/
theorem memGet_memPut_inside (m : Memory) (a i : Nat) (bs : List Byte) (h : i < bs.length) :
    memGet (memPut m a bs) (a + i) = bs[i]? := by
  unfold memPut
  rw [memGet_append, memGet_append, memGet_cellsFrom bs a i h]
  rw [memGet_none_of_forall (m := m.filter _)]
  · simp [List.getElem?_eq_getElem h]
  · intro c hc
    have : c.1 < a := by simpa using (List.mem_filter.mp hc).2
    omega

/-- A read outside the written range gives what it gave before. -/
theorem memGet_memPut_outside (m : Memory) (a k : Nat) (bs : List Byte) (h : k < a ∨ a + bs.length ≤ k) :
    memGet (memPut m a bs) k = memGet m k := by
  unfold memPut
  rw [memGet_append, memGet_append]
  have hc : memGet (cellsFrom a bs) k = none :=
    memGet_none_of_forall fun c hc => by have := mem_cellsFrom hc; omega
  rcases h with h | h
  · rw [memGet_filter (p := fun x => decide (x < a)) (by simpa using h), hc]
    rw [memGet_none_of_forall (m := m.filter (fun c => decide (a + bs.length ≤ c.1)))]
    · simp
    · intro c hc
      have : a + bs.length ≤ c.1 := by simpa using (List.mem_filter.mp hc).2
      omega
  · rw [memGet_filter (p := fun x => decide (a + bs.length ≤ x)) (by simpa using h), hc]
    rw [memGet_none_of_forall (m := m.filter (fun c => decide (c.1 < a)))]
    · simp
    · intro c hc
      have : c.1 < a := by simpa using (List.mem_filter.mp hc).2
      omega

/-- The whole outcome of a write through the state: it fits, and only PAYLOAD changes; or it does not fit. -/
theorem State.memWrite_eq (s : State) (a : Nat) (bs : List Byte) :
    (a + bs.length ≤ payloadBytes s.params ∧ s.memWrite a bs = some { s with payload := memPut s.payload a bs }) ∨
      (payloadBytes s.params < a + bs.length ∧ s.memWrite a bs = none) := by
  unfold State.memWrite
  by_cases h : a + bs.length ≤ payloadBytes s.params
  · exact .inl ⟨h, if_pos h⟩
  · exact .inr ⟨by omega, if_neg h⟩

/-- A sequence read from PAYLOAD has the length asked for. -/
@[simp] theorem State.readFrom_length (s : State) : ∀ (n a : Nat), (s.readFrom a n).length = n
  | 0, _ => rfl
  | n + 1, a => by simp [State.readFrom, State.readFrom_length s n (a + 1)]

/-- Byte `i` of a sequence read from PAYLOAD. -/
theorem State.readFrom_getElem? (s : State) : ∀ (n a i : Nat), i < n → (s.readFrom a n)[i]? = some (s.readByte (a + i))
  | n + 1, a, 0, _ => by simp [State.readFrom]
  | n + 1, a, i + 1, h => by
    have := State.readFrom_getElem? s n (a + 1) i (by omega)
    simp only [State.readFrom, List.getElem?_cons_succ, this]
    congr 2; omega

/-- What is read from PAYLOAD depends on PAYLOAD alone. -/
theorem State.readFrom_congr {s t : State} (hp : t.payload = s.payload) (he : t.payloadEpoch = s.payloadEpoch) :
    ∀ (n a : Nat), t.readFrom a n = s.readFrom a n
  | 0, _ => rfl
  | n + 1, a => by
    have hb : t.readByte a = s.readByte a := by unfold State.readByte; rw [hp, he]
    simp only [State.readFrom, hb, State.readFrom_congr hp he n (a + 1)]

/-- What a write's data phase transmits depends on PAYLOAD and the parameters alone. -/
theorem State.txBytes_congr {s t : State} (hq : t.params = s.params) (hp : t.payload = s.payload)
    (he : t.payloadEpoch = s.payloadEpoch) (dir : Dir) (hasBuf : Bool) (len : BitVec 12) :
    t.txBytes dir hasBuf len = s.txBytes dir hasBuf len := by
  unfold State.txBytes State.memRead
  rw [hq, State.readFrom_congr hp he]

end Sys2Proof.Machine
end

