-- ==== Sys2Proof/Laws/Operands.lean ====
section
/-! SUPPORT. The fields of the built words: each field of a word built by `cmdWord` or `engWord` is the operand it was
built from, and a word is built from its own fields. -/

namespace Sys2Proof.Machine

section CommandWord
variable (op : BitVec 2) (rsv0 : BitVec 6) (addr : BitVec 9) (rsv1 : BitVec 3) (len : BitVec 12)

/-- Bit `i` of a command word, by the field it lies in. -/
theorem cmdWord_getLsbD (i : Nat) :
    (cmdWord op rsv0 addr rsv1 len).getLsbD i =
      if i < 2 then op.getLsbD i
      else if i < 8 then rsv0.getLsbD (i - 2)
      else if i < 17 then addr.getLsbD (i - 8)
      else if i < 20 then rsv1.getLsbD (i - 17)
      else len.getLsbD (i - 20) := by
  show BitVec.getLsbD (w := 12 + 3 + 9 + 6 + 2) (len ++ rsv1 ++ addr ++ rsv0 ++ op) i = _
  simp only [BitVec.getLsbD_append, Nat.sub_sub]
  split_ifs <;> first | rfl | omega

@[simp] theorem cmdOp_cmdWord : cmdOp (cmdWord op rsv0 addr rsv1 len) = op := by
  ext i hi
  simp only [cmdOp, BitVec.getElem_extractLsb', cmdWord_getLsbD]
  simp [hi]
@[simp] theorem cmdRsv0_cmdWord : cmdRsv0 (cmdWord op rsv0 addr rsv1 len) = rsv0 := by
  ext i hi
  simp only [cmdRsv0, BitVec.getElem_extractLsb', cmdWord_getLsbD]
  rw [if_neg (by omega), if_pos (by omega)]; simp [hi]
@[simp] theorem cmdAddr_cmdWord : cmdAddr (cmdWord op rsv0 addr rsv1 len) = addr := by
  ext i hi
  simp only [cmdAddr, BitVec.getElem_extractLsb', cmdWord_getLsbD]
  rw [if_neg (by omega), if_neg (by omega), if_pos (by omega)]; simp [hi]
@[simp] theorem cmdRsv1_cmdWord : cmdRsv1 (cmdWord op rsv0 addr rsv1 len) = rsv1 := by
  ext i hi
  simp only [cmdRsv1, BitVec.getElem_extractLsb', cmdWord_getLsbD]
  rw [if_neg (by omega), if_neg (by omega), if_neg (by omega), if_pos (by omega)]; simp [hi]
@[simp] theorem cmdLen_cmdWord : cmdLen (cmdWord op rsv0 addr rsv1 len) = len := by
  ext i hi
  simp only [cmdLen, BitVec.getElem_extractLsb', cmdWord_getLsbD]
  rw [if_neg (by omega), if_neg (by omega), if_neg (by omega), if_neg (by omega)]; simp [hi]

/-- A command word is built from its own fields. -/
theorem cmdWord_fields (w : Word) : cmdWord (cmdOp w) (cmdRsv0 w) (cmdAddr w) (cmdRsv1 w) (cmdLen w) = w := by
  apply BitVec.eq_of_getLsbD_eq
  intro i hi
  rw [cmdWord_getLsbD]
  simp only [cmdOp, cmdRsv0, cmdAddr, cmdRsv1, cmdLen, BitVec.getLsbD_extractLsb']
  split_ifs <;> (rw [decide_eq_true (by omega), Bool.true_and]; congr 1; omega)

end CommandWord

section EngineWord
variable (op : BitVec 2) (hasBuf : Bool) (rsv : BitVec 5) (addr : BitVec 9) (rsvHi : BitVec 3) (len : BitVec 12)

/-- Bit `i` of an engine request word, by the field it lies in. -/
theorem engWord_getLsbD (i : Nat) :
    (engWord op hasBuf rsv addr rsvHi len).getLsbD i =
      if i < 2 then op.getLsbD i
      else if i < 3 then hasBuf
      else if i < 8 then rsv.getLsbD (i - 3)
      else if i < 17 then addr.getLsbD (i - 8)
      else if i < 20 then rsvHi.getLsbD (i - 17)
      else len.getLsbD (i - 20) := by
  show BitVec.getLsbD (w := 12 + 3 + 9 + 5 + 1 + 2) (len ++ rsvHi ++ addr ++ rsv ++ BitVec.ofBool hasBuf ++ op) i = _
  simp only [BitVec.getLsbD_append, Nat.sub_sub, BitVec.getLsbD_ofBool]
  split_ifs <;> first | rfl | omega | (rw [decide_eq_true (by omega), Bool.true_and])

@[simp] theorem engOp_engWord : engOp (engWord op hasBuf rsv addr rsvHi len) = op := by
  ext i hi
  simp only [engOp, BitVec.getElem_extractLsb', engWord_getLsbD]
  simp [hi]
@[simp] theorem engHasBuf_engWord : engHasBuf (engWord op hasBuf rsv addr rsvHi len) = hasBuf := by
  unfold engHasBuf; rw [engWord_getLsbD]; rfl
@[simp] theorem engRsv_engWord : engRsv (engWord op hasBuf rsv addr rsvHi len) = rsv := by
  ext i hi
  simp only [engRsv, BitVec.getElem_extractLsb', engWord_getLsbD]
  rw [if_neg (by omega), if_neg (by omega), if_pos (by omega)]; simp [hi]
@[simp] theorem engAddr_engWord : engAddr (engWord op hasBuf rsv addr rsvHi len) = addr := by
  ext i hi
  simp only [engAddr, BitVec.getElem_extractLsb', engWord_getLsbD]
  rw [if_neg (by omega), if_neg (by omega), if_neg (by omega), if_pos (by omega)]; simp [hi]
@[simp] theorem engRsvHi_engWord : engRsvHi (engWord op hasBuf rsv addr rsvHi len) = rsvHi := by
  ext i hi
  simp only [engRsvHi, BitVec.getElem_extractLsb', engWord_getLsbD]
  rw [if_neg (by omega), if_neg (by omega), if_neg (by omega), if_neg (by omega), if_pos (by omega)]; simp [hi]
@[simp] theorem engLen_engWord : engLen (engWord op hasBuf rsv addr rsvHi len) = len := by
  ext i hi
  simp only [engLen, BitVec.getElem_extractLsb', engWord_getLsbD]
  rw [if_neg (by omega), if_neg (by omega), if_neg (by omega), if_neg (by omega), if_neg (by omega)]; simp [hi]

/-- An engine request word is built from its own fields. -/
theorem engWord_fields (w : Word) :
    engWord (engOp w) (engHasBuf w) (engRsv w) (engAddr w) (engRsvHi w) (engLen w) = w := by
  apply BitVec.eq_of_getLsbD_eq
  intro i hi
  rw [engWord_getLsbD]
  simp only [engOp, engHasBuf, engRsv, engAddr, engRsvHi, engLen, BitVec.getLsbD_extractLsb']
  split_ifs <;>
    first
    | (rw [decide_eq_true (by omega), Bool.true_and]; congr 1; omega)
    | (congr 1; omega)

end EngineWord

/-- The low two bits of a word with OP[1] = 1. -/
theorem reservedOp_eq (op : BitVec 2) (h0 : op ≠ 0#2) (h1 : op ≠ 1#2) : (1#1 ++ op.extractLsb' 0 1 : BitVec 2) = op := by
  revert op; decide

/-- The operation code built for a reserved row is neither BLK_WRITE's nor BLK_READ's. -/
theorem reservedOp_ne (b : BitVec 1) : (1#1 ++ b : BitVec 2) ≠ 0#2 ∧ (1#1 ++ b : BitVec 2) ≠ 1#2 := by
  revert b; decide

/-- OP[0] of the operation code built for a reserved row. -/
@[simp] theorem reservedOp_low (b : BitVec 1) : (1#1 ++ b : BitVec 2).extractLsb' 0 1 = b := by
  revert b; decide

end Sys2Proof.Machine
end

