-- ==== Sys2Proof/Laws/State.lean ====
section
/-! SUPPORT. One lemma for each field of each named update of the state, true by rfl, so that no proof unfolds an
update. -/

namespace Sys2Proof.Machine

@[simp] theorem State.emit_params (s : State) (n : Notification) : (s.emit n).params = s.params := rfl
@[simp] theorem State.emit_rst (s : State) (n : Notification) : (s.emit n).rst = s.rst := rfl
@[simp] theorem State.emit_seq (s : State) (n : Notification) : (s.emit n).seq = s.seq := rfl
@[simp] theorem State.emit_tp (s : State) (n : Notification) : (s.emit n).tp = s.tp := rfl
@[simp] theorem State.emit_cmd (s : State) (n : Notification) : (s.emit n).cmd = s.cmd := rfl
@[simp] theorem State.emit_owner (s : State) (n : Notification) : (s.emit n).owner = s.owner := rfl
@[simp] theorem State.emit_engreq (s : State) (n : Notification) : (s.emit n).engreq = s.engreq := rfl
@[simp] theorem State.emit_hdrTx (s : State) (n : Notification) : (s.emit n).hdrTx = s.hdrTx := rfl
@[simp] theorem State.emit_hdrRx (s : State) (n : Notification) : (s.emit n).hdrRx = s.hdrRx := rfl
@[simp] theorem State.emit_result (s : State) (n : Notification) : (s.emit n).result = s.result := rfl
@[simp] theorem State.emit_payload (s : State) (n : Notification) : (s.emit n).payload = s.payload := rfl
@[simp] theorem State.emit_payloadEpoch (s : State) (n : Notification) : (s.emit n).payloadEpoch = s.payloadEpoch := rfl
@[simp] theorem State.emit_txn (s : State) (n : Notification) : (s.emit n).txn = s.txn := rfl
@[simp] theorem State.emit_answer (s : State) (n : Notification) : (s.emit n).answer = s.answer := rfl
@[simp] theorem State.emit_ports (s : State) (n : Notification) : (s.emit n).ports = s.ports := rfl
@[simp] theorem State.emit_power (s : State) (n : Notification) : (s.emit n).power = s.power ++ [n] := rfl
@[simp] theorem State.emit_grant (s : State) (n : Notification) : (s.emit n).grant = s.grant := rfl
@[simp] theorem State.emit_choices (s : State) (n : Notification) : (s.emit n).choices = s.choices := rfl
@[simp] theorem State.emit_moves (s : State) (n : Notification) : (s.emit n).moves = s.moves := rfl

@[simp] theorem State.post_params (s : State) (code : Code) (cause : BitVec 4) :
    (s.post code cause).params = s.params := rfl
@[simp] theorem State.post_rst (s : State) (code : Code) (cause : BitVec 4) : (s.post code cause).rst = s.rst := rfl
@[simp] theorem State.post_seq (s : State) (code : Code) (cause : BitVec 4) : (s.post code cause).seq = .resp := rfl
@[simp] theorem State.post_tp (s : State) (code : Code) (cause : BitVec 4) : (s.post code cause).tp = s.tp := rfl
@[simp] theorem State.post_cmd (s : State) (code : Code) (cause : BitVec 4) : (s.post code cause).cmd = s.cmd := rfl
@[simp] theorem State.post_owner (s : State) (code : Code) (cause : BitVec 4) :
    (s.post code cause).owner = s.owner := rfl
@[simp] theorem State.post_engreq (s : State) (code : Code) (cause : BitVec 4) :
    (s.post code cause).engreq = s.engreq := rfl
@[simp] theorem State.post_hdrTx (s : State) (code : Code) (cause : BitVec 4) :
    (s.post code cause).hdrTx = s.hdrTx := rfl
@[simp] theorem State.post_hdrRx (s : State) (code : Code) (cause : BitVec 4) :
    (s.post code cause).hdrRx = s.hdrRx := rfl
@[simp] theorem State.post_result (s : State) (code : Code) (cause : BitVec 4) :
    (s.post code cause).result = setOutcome s.result code cause := rfl
@[simp] theorem State.post_payload (s : State) (code : Code) (cause : BitVec 4) :
    (s.post code cause).payload = s.payload := rfl
@[simp] theorem State.post_payloadEpoch (s : State) (code : Code) (cause : BitVec 4) :
    (s.post code cause).payloadEpoch = s.payloadEpoch := rfl
@[simp] theorem State.post_txn (s : State) (code : Code) (cause : BitVec 4) : (s.post code cause).txn = s.txn := rfl
@[simp] theorem State.post_answer (s : State) (code : Code) (cause : BitVec 4) :
    (s.post code cause).answer = s.answer := rfl
@[simp] theorem State.post_ports (s : State) (code : Code) (cause : BitVec 4) :
    (s.post code cause).ports = s.ports := rfl
@[simp] theorem State.post_power (s : State) (code : Code) (cause : BitVec 4) :
    (s.post code cause).power = s.power := rfl
@[simp] theorem State.post_grant (s : State) (code : Code) (cause : BitVec 4) :
    (s.post code cause).grant = s.grant := rfl
@[simp] theorem State.post_choices (s : State) (code : Code) (cause : BitVec 4) :
    (s.post code cause).choices = s.choices := rfl
@[simp] theorem State.post_moves (s : State) (code : Code) (cause : BitVec 4) :
    (s.post code cause).moves = s.moves := rfl

@[simp] theorem State.finish_params (s : State) (code : Code) (cause : BitVec 4) :
    (s.finish code cause).params = s.params := rfl
@[simp] theorem State.finish_rst (s : State) (code : Code) (cause : BitVec 4) : (s.finish code cause).rst = s.rst := rfl
@[simp] theorem State.finish_seq (s : State) (code : Code) (cause : BitVec 4) : (s.finish code cause).seq = .resp := rfl
@[simp] theorem State.finish_tp (s : State) (code : Code) (cause : BitVec 4) : (s.finish code cause).tp = s.tp := rfl
@[simp] theorem State.finish_cmd (s : State) (code : Code) (cause : BitVec 4) : (s.finish code cause).cmd = s.cmd := rfl
@[simp] theorem State.finish_owner (s : State) (code : Code) (cause : BitVec 4) :
    (s.finish code cause).owner = s.owner := rfl
@[simp] theorem State.finish_engreq (s : State) (code : Code) (cause : BitVec 4) :
    (s.finish code cause).engreq = s.engreq := rfl
@[simp] theorem State.finish_hdrTx (s : State) (code : Code) (cause : BitVec 4) :
    (s.finish code cause).hdrTx = s.hdrTx := rfl
@[simp] theorem State.finish_hdrRx (s : State) (code : Code) (cause : BitVec 4) :
    (s.finish code cause).hdrRx = s.hdrRx := rfl
@[simp] theorem State.finish_result (s : State) (code : Code) (cause : BitVec 4) :
    (s.finish code cause).result = setOutcome s.result code cause := rfl
@[simp] theorem State.finish_payload (s : State) (code : Code) (cause : BitVec 4) :
    (s.finish code cause).payload = s.payload := rfl
@[simp] theorem State.finish_payloadEpoch (s : State) (code : Code) (cause : BitVec 4) :
    (s.finish code cause).payloadEpoch = s.payloadEpoch := rfl
@[simp] theorem State.finish_txn (s : State) (code : Code) (cause : BitVec 4) : (s.finish code cause).txn = s.txn := rfl
@[simp] theorem State.finish_answer (s : State) (code : Code) (cause : BitVec 4) :
    (s.finish code cause).answer = s.answer := rfl
@[simp] theorem State.finish_ports (s : State) (code : Code) (cause : BitVec 4) :
    (s.finish code cause).ports = s.ports := rfl
@[simp] theorem State.finish_power (s : State) (code : Code) (cause : BitVec 4) :
    (s.finish code cause).power = s.power ++ [.idleDec] := rfl
@[simp] theorem State.finish_grant (s : State) (code : Code) (cause : BitVec 4) :
    (s.finish code cause).grant = s.grant := rfl
@[simp] theorem State.finish_choices (s : State) (code : Code) (cause : BitVec 4) :
    (s.finish code cause).choices = s.choices := rfl
@[simp] theorem State.finish_moves (s : State) (code : Code) (cause : BitVec 4) :
    (s.finish code cause).moves = s.moves := rfl

@[simp] theorem State.updatePort_params (s : State) (r : Nat) (f : ReqPort → ReqPort) :
    (s.updatePort r f).params = s.params := rfl
@[simp] theorem State.updatePort_rst (s : State) (r : Nat) (f : ReqPort → ReqPort) :
    (s.updatePort r f).rst = s.rst := rfl
@[simp] theorem State.updatePort_seq (s : State) (r : Nat) (f : ReqPort → ReqPort) :
    (s.updatePort r f).seq = s.seq := rfl
@[simp] theorem State.updatePort_tp (s : State) (r : Nat) (f : ReqPort → ReqPort) : (s.updatePort r f).tp = s.tp := rfl
@[simp] theorem State.updatePort_cmd (s : State) (r : Nat) (f : ReqPort → ReqPort) :
    (s.updatePort r f).cmd = s.cmd := rfl
@[simp] theorem State.updatePort_owner (s : State) (r : Nat) (f : ReqPort → ReqPort) :
    (s.updatePort r f).owner = s.owner := rfl
@[simp] theorem State.updatePort_engreq (s : State) (r : Nat) (f : ReqPort → ReqPort) :
    (s.updatePort r f).engreq = s.engreq := rfl
@[simp] theorem State.updatePort_hdrTx (s : State) (r : Nat) (f : ReqPort → ReqPort) :
    (s.updatePort r f).hdrTx = s.hdrTx := rfl
@[simp] theorem State.updatePort_hdrRx (s : State) (r : Nat) (f : ReqPort → ReqPort) :
    (s.updatePort r f).hdrRx = s.hdrRx := rfl
@[simp] theorem State.updatePort_result (s : State) (r : Nat) (f : ReqPort → ReqPort) :
    (s.updatePort r f).result = s.result := rfl
@[simp] theorem State.updatePort_payload (s : State) (r : Nat) (f : ReqPort → ReqPort) :
    (s.updatePort r f).payload = s.payload := rfl
@[simp] theorem State.updatePort_payloadEpoch (s : State) (r : Nat) (f : ReqPort → ReqPort) :
    (s.updatePort r f).payloadEpoch = s.payloadEpoch := rfl
@[simp] theorem State.updatePort_txn (s : State) (r : Nat) (f : ReqPort → ReqPort) :
    (s.updatePort r f).txn = s.txn := rfl
@[simp] theorem State.updatePort_answer (s : State) (r : Nat) (f : ReqPort → ReqPort) :
    (s.updatePort r f).answer = s.answer := rfl
@[simp] theorem State.updatePort_ports (s : State) (r : Nat) (f : ReqPort → ReqPort) :
    (s.updatePort r f).ports = s.ports.modify r f := rfl
@[simp] theorem State.updatePort_power (s : State) (r : Nat) (f : ReqPort → ReqPort) :
    (s.updatePort r f).power = s.power := rfl
@[simp] theorem State.updatePort_grant (s : State) (r : Nat) (f : ReqPort → ReqPort) :
    (s.updatePort r f).grant = s.grant := rfl
@[simp] theorem State.updatePort_choices (s : State) (r : Nat) (f : ReqPort → ReqPort) :
    (s.updatePort r f).choices = s.choices := rfl
@[simp] theorem State.updatePort_moves (s : State) (r : Nat) (f : ReqPort → ReqPort) :
    (s.updatePort r f).moves = s.moves := rfl

@[simp] theorem State.deliver_params (s : State) (resp : Response) : (s.deliver resp).params = s.params := rfl
@[simp] theorem State.deliver_rst (s : State) (resp : Response) : (s.deliver resp).rst = s.rst := rfl
@[simp] theorem State.deliver_seq (s : State) (resp : Response) : (s.deliver resp).seq = .idle := rfl
@[simp] theorem State.deliver_tp (s : State) (resp : Response) : (s.deliver resp).tp = s.tp := rfl
@[simp] theorem State.deliver_cmd (s : State) (resp : Response) : (s.deliver resp).cmd = s.cmd := rfl
@[simp] theorem State.deliver_owner (s : State) (resp : Response) : (s.deliver resp).owner = s.owner := rfl
@[simp] theorem State.deliver_engreq (s : State) (resp : Response) : (s.deliver resp).engreq = s.engreq := rfl
@[simp] theorem State.deliver_hdrTx (s : State) (resp : Response) : (s.deliver resp).hdrTx = s.hdrTx := rfl
@[simp] theorem State.deliver_hdrRx (s : State) (resp : Response) : (s.deliver resp).hdrRx = s.hdrRx := rfl
@[simp] theorem State.deliver_result (s : State) (resp : Response) : (s.deliver resp).result = s.result := rfl
@[simp] theorem State.deliver_payload (s : State) (resp : Response) : (s.deliver resp).payload = s.payload := rfl
@[simp] theorem State.deliver_payloadEpoch (s : State) (resp : Response) :
    (s.deliver resp).payloadEpoch = s.payloadEpoch := rfl
@[simp] theorem State.deliver_txn (s : State) (resp : Response) : (s.deliver resp).txn = s.txn := rfl
@[simp] theorem State.deliver_answer (s : State) (resp : Response) : (s.deliver resp).answer = s.answer := rfl
@[simp] theorem State.deliver_ports (s : State) (resp : Response) :
    (s.deliver resp).ports = s.ports.modify s.owner (fun p => { p with waiting := false, taken := some resp }) := rfl
@[simp] theorem State.deliver_power (s : State) (resp : Response) : (s.deliver resp).power = s.power := rfl
@[simp] theorem State.deliver_grant (s : State) (resp : Response) : (s.deliver resp).grant = s.grant := rfl
@[simp] theorem State.deliver_choices (s : State) (resp : Response) : (s.deliver resp).choices = s.choices := rfl
@[simp] theorem State.deliver_moves (s : State) (resp : Response) : (s.deliver resp).moves = s.moves := rfl

@[simp] theorem State.latch_params (s : State) (cmdw : Word) (wdata : List Byte) :
    (s.latch cmdw wdata).params = s.params := rfl
@[simp] theorem State.latch_rst (s : State) (cmdw : Word) (wdata : List Byte) : (s.latch cmdw wdata).rst = s.rst := rfl
@[simp] theorem State.latch_seq (s : State) (cmdw : Word) (wdata : List Byte) : (s.latch cmdw wdata).seq = s.seq := rfl
@[simp] theorem State.latch_tp (s : State) (cmdw : Word) (wdata : List Byte) : (s.latch cmdw wdata).tp = s.tp := rfl
@[simp] theorem State.latch_cmd (s : State) (cmdw : Word) (wdata : List Byte) : (s.latch cmdw wdata).cmd = cmdw := rfl
@[simp] theorem State.latch_owner (s : State) (cmdw : Word) (wdata : List Byte) :
    (s.latch cmdw wdata).owner = s.grant := rfl
@[simp] theorem State.latch_engreq (s : State) (cmdw : Word) (wdata : List Byte) :
    (s.latch cmdw wdata).engreq = s.engreq := rfl
@[simp] theorem State.latch_hdrTx (s : State) (cmdw : Word) (wdata : List Byte) :
    (s.latch cmdw wdata).hdrTx = s.hdrTx := rfl
@[simp] theorem State.latch_hdrRx (s : State) (cmdw : Word) (wdata : List Byte) :
    (s.latch cmdw wdata).hdrRx = s.hdrRx := rfl
@[simp] theorem State.latch_result (s : State) (cmdw : Word) (wdata : List Byte) :
    (s.latch cmdw wdata).result = 0x00000000#32 := rfl
@[simp] theorem State.latch_payload (s : State) (cmdw : Word) (wdata : List Byte) :
    (s.latch cmdw wdata).payload = if latches s.params cmdw then memPut s.payload 0 wdata else s.payload := rfl
@[simp] theorem State.latch_payloadEpoch (s : State) (cmdw : Word) (wdata : List Byte) :
    (s.latch cmdw wdata).payloadEpoch = s.payloadEpoch := rfl
@[simp] theorem State.latch_txn (s : State) (cmdw : Word) (wdata : List Byte) : (s.latch cmdw wdata).txn = s.txn := rfl
@[simp] theorem State.latch_answer (s : State) (cmdw : Word) (wdata : List Byte) :
    (s.latch cmdw wdata).answer = s.answer := rfl
@[simp] theorem State.latch_ports (s : State) (cmdw : Word) (wdata : List Byte) :
    (s.latch cmdw wdata).ports = s.ports.modify s.grant (fun p => { p with offer := none, waiting := true }) := rfl
@[simp] theorem State.latch_power (s : State) (cmdw : Word) (wdata : List Byte) :
    (s.latch cmdw wdata).power = s.power := rfl
@[simp] theorem State.latch_grant (s : State) (cmdw : Word) (wdata : List Byte) :
    (s.latch cmdw wdata).grant = s.grant := rfl
@[simp] theorem State.latch_choices (s : State) (cmdw : Word) (wdata : List Byte) :
    (s.latch cmdw wdata).choices = s.choices := rfl
@[simp] theorem State.latch_moves (s : State) (cmdw : Word) (wdata : List Byte) :
    (s.latch cmdw wdata).moves = s.moves := rfl

@[simp] theorem State.enterWrite_params (s : State) : (s.enterWrite).params = s.params := rfl
@[simp] theorem State.enterWrite_rst (s : State) : (s.enterWrite).rst = s.rst := rfl
@[simp] theorem State.enterWrite_seq (s : State) : (s.enterWrite).seq = .data := rfl
@[simp] theorem State.enterWrite_tp (s : State) : (s.enterWrite).tp = s.tp := rfl
@[simp] theorem State.enterWrite_cmd (s : State) : (s.enterWrite).cmd = s.cmd := rfl
@[simp] theorem State.enterWrite_owner (s : State) : (s.enterWrite).owner = s.owner := rfl
@[simp] theorem State.enterWrite_engreq (s : State) : (s.enterWrite).engreq = writeRequest s.cmd := rfl
@[simp] theorem State.enterWrite_hdrTx (s : State) : (s.enterWrite).hdrTx = s.hdrTx := rfl
@[simp] theorem State.enterWrite_hdrRx (s : State) : (s.enterWrite).hdrRx = s.hdrRx := rfl
@[simp] theorem State.enterWrite_result (s : State) : (s.enterWrite).result = s.result := rfl
@[simp] theorem State.enterWrite_payload (s : State) : (s.enterWrite).payload = s.payload := rfl
@[simp] theorem State.enterWrite_payloadEpoch (s : State) : (s.enterWrite).payloadEpoch = s.payloadEpoch := rfl
@[simp] theorem State.enterWrite_txn (s : State) : (s.enterWrite).txn = s.txn := rfl
@[simp] theorem State.enterWrite_answer (s : State) : (s.enterWrite).answer = s.answer := rfl
@[simp] theorem State.enterWrite_ports (s : State) : (s.enterWrite).ports = s.ports := rfl
@[simp] theorem State.enterWrite_power (s : State) : (s.enterWrite).power = s.power ++ [.activeInc] := rfl
@[simp] theorem State.enterWrite_grant (s : State) : (s.enterWrite).grant = s.grant := rfl
@[simp] theorem State.enterWrite_choices (s : State) : (s.enterWrite).choices = s.choices := rfl
@[simp] theorem State.enterWrite_moves (s : State) : (s.enterWrite).moves = s.moves := rfl

@[simp] theorem State.enterRead_params (s : State) : (s.enterRead).params = s.params := rfl
@[simp] theorem State.enterRead_rst (s : State) : (s.enterRead).rst = s.rst := rfl
@[simp] theorem State.enterRead_seq (s : State) : (s.enterRead).seq = .setaddr := rfl
@[simp] theorem State.enterRead_tp (s : State) : (s.enterRead).tp = s.tp := rfl
@[simp] theorem State.enterRead_cmd (s : State) : (s.enterRead).cmd = s.cmd := rfl
@[simp] theorem State.enterRead_owner (s : State) : (s.enterRead).owner = s.owner := rfl
@[simp] theorem State.enterRead_engreq (s : State) : (s.enterRead).engreq = setaddrRequest s.cmd := rfl
@[simp] theorem State.enterRead_hdrTx (s : State) : (s.enterRead).hdrTx = s.hdrTx := rfl
@[simp] theorem State.enterRead_hdrRx (s : State) : (s.enterRead).hdrRx = s.hdrRx := rfl
@[simp] theorem State.enterRead_result (s : State) : (s.enterRead).result = s.result := rfl
@[simp] theorem State.enterRead_payload (s : State) : (s.enterRead).payload = s.payload := rfl
@[simp] theorem State.enterRead_payloadEpoch (s : State) : (s.enterRead).payloadEpoch = s.payloadEpoch := rfl
@[simp] theorem State.enterRead_txn (s : State) : (s.enterRead).txn = s.txn := rfl
@[simp] theorem State.enterRead_answer (s : State) : (s.enterRead).answer = s.answer := rfl
@[simp] theorem State.enterRead_ports (s : State) : (s.enterRead).ports = s.ports := rfl
@[simp] theorem State.enterRead_power (s : State) : (s.enterRead).power = s.power ++ [.activeInc] := rfl
@[simp] theorem State.enterRead_grant (s : State) : (s.enterRead).grant = s.grant := rfl
@[simp] theorem State.enterRead_choices (s : State) : (s.enterRead).choices = s.choices := rfl
@[simp] theorem State.enterRead_moves (s : State) : (s.enterRead).moves = s.moves := rfl

@[simp] theorem State.enterReserved_params (s : State) : (s.enterReserved).params = s.params := rfl
@[simp] theorem State.enterReserved_rst (s : State) : (s.enterReserved).rst = s.rst := rfl
@[simp] theorem State.enterReserved_seq (s : State) : (s.enterReserved).seq = .resp := rfl
@[simp] theorem State.enterReserved_tp (s : State) : (s.enterReserved).tp = s.tp := rfl
@[simp] theorem State.enterReserved_cmd (s : State) : (s.enterReserved).cmd = s.cmd := rfl
@[simp] theorem State.enterReserved_owner (s : State) : (s.enterReserved).owner = s.owner := rfl
@[simp] theorem State.enterReserved_engreq (s : State) : (s.enterReserved).engreq = s.engreq := rfl
@[simp] theorem State.enterReserved_hdrTx (s : State) : (s.enterReserved).hdrTx = s.hdrTx := rfl
@[simp] theorem State.enterReserved_hdrRx (s : State) : (s.enterReserved).hdrRx = s.hdrRx := rfl
@[simp] theorem State.enterReserved_result (s : State) :
    (s.enterReserved).result = setOutcome s.result .invalidOp 0#4 := rfl
@[simp] theorem State.enterReserved_payload (s : State) : (s.enterReserved).payload = s.payload := rfl
@[simp] theorem State.enterReserved_payloadEpoch (s : State) : (s.enterReserved).payloadEpoch = s.payloadEpoch := rfl
@[simp] theorem State.enterReserved_txn (s : State) : (s.enterReserved).txn = s.txn := rfl
@[simp] theorem State.enterReserved_answer (s : State) : (s.enterReserved).answer = s.answer := rfl
@[simp] theorem State.enterReserved_ports (s : State) : (s.enterReserved).ports = s.ports := rfl
@[simp] theorem State.enterReserved_power (s : State) : (s.enterReserved).power = s.power := rfl
@[simp] theorem State.enterReserved_grant (s : State) : (s.enterReserved).grant = s.grant := rfl
@[simp] theorem State.enterReserved_choices (s : State) : (s.enterReserved).choices = s.choices := rfl
@[simp] theorem State.enterReserved_moves (s : State) : (s.enterReserved).moves = s.moves := rfl

@[simp] theorem State.populateHeader_params (s : State) (h : HdrReg) : (s.populateHeader h).params = s.params := rfl
@[simp] theorem State.populateHeader_rst (s : State) (h : HdrReg) : (s.populateHeader h).rst = s.rst := rfl
@[simp] theorem State.populateHeader_seq (s : State) (h : HdrReg) : (s.populateHeader h).seq = s.seq := rfl
@[simp] theorem State.populateHeader_tp (s : State) (h : HdrReg) : (s.populateHeader h).tp = s.tp := rfl
@[simp] theorem State.populateHeader_cmd (s : State) (h : HdrReg) : (s.populateHeader h).cmd = s.cmd := rfl
@[simp] theorem State.populateHeader_owner (s : State) (h : HdrReg) : (s.populateHeader h).owner = s.owner := rfl
@[simp] theorem State.populateHeader_engreq (s : State) (h : HdrReg) : (s.populateHeader h).engreq = s.engreq := rfl
@[simp] theorem State.populateHeader_hdrTx (s : State) (h : HdrReg) : (s.populateHeader h).hdrTx = h := rfl
@[simp] theorem State.populateHeader_hdrRx (s : State) (h : HdrReg) :
    (s.populateHeader h).hdrRx = { b0 := 0x00#8, b1 := 0x00#8 } := rfl
@[simp] theorem State.populateHeader_result (s : State) (h : HdrReg) : (s.populateHeader h).result = s.result := rfl
@[simp] theorem State.populateHeader_payload (s : State) (h : HdrReg) : (s.populateHeader h).payload = s.payload := rfl
@[simp] theorem State.populateHeader_payloadEpoch (s : State) (h : HdrReg) :
    (s.populateHeader h).payloadEpoch = s.payloadEpoch := rfl
@[simp] theorem State.populateHeader_txn (s : State) (h : HdrReg) : (s.populateHeader h).txn = s.txn := rfl
@[simp] theorem State.populateHeader_answer (s : State) (h : HdrReg) : (s.populateHeader h).answer = s.answer := rfl
@[simp] theorem State.populateHeader_ports (s : State) (h : HdrReg) : (s.populateHeader h).ports = s.ports := rfl
@[simp] theorem State.populateHeader_power (s : State) (h : HdrReg) : (s.populateHeader h).power = s.power := rfl
@[simp] theorem State.populateHeader_grant (s : State) (h : HdrReg) : (s.populateHeader h).grant = s.grant := rfl
@[simp] theorem State.populateHeader_choices (s : State) (h : HdrReg) : (s.populateHeader h).choices = s.choices := rfl
@[simp] theorem State.populateHeader_moves (s : State) (h : HdrReg) : (s.populateHeader h).moves = s.moves := rfl

@[simp] theorem State.issue_params (s : State) (t : Txn) : (s.issue t).params = s.params := rfl
@[simp] theorem State.issue_rst (s : State) (t : Txn) : (s.issue t).rst = s.rst := rfl
@[simp] theorem State.issue_seq (s : State) (t : Txn) : (s.issue t).seq = s.seq := rfl
@[simp] theorem State.issue_tp (s : State) (t : Txn) : (s.issue t).tp = true := rfl
@[simp] theorem State.issue_cmd (s : State) (t : Txn) : (s.issue t).cmd = s.cmd := rfl
@[simp] theorem State.issue_owner (s : State) (t : Txn) : (s.issue t).owner = s.owner := rfl
@[simp] theorem State.issue_engreq (s : State) (t : Txn) : (s.issue t).engreq = s.engreq := rfl
@[simp] theorem State.issue_hdrTx (s : State) (t : Txn) : (s.issue t).hdrTx = s.hdrTx := rfl
@[simp] theorem State.issue_hdrRx (s : State) (t : Txn) : (s.issue t).hdrRx = s.hdrRx := rfl
@[simp] theorem State.issue_result (s : State) (t : Txn) : (s.issue t).result = s.result := rfl
@[simp] theorem State.issue_payload (s : State) (t : Txn) : (s.issue t).payload = s.payload := rfl
@[simp] theorem State.issue_payloadEpoch (s : State) (t : Txn) : (s.issue t).payloadEpoch = s.payloadEpoch := rfl
@[simp] theorem State.issue_txn (s : State) (t : Txn) : (s.issue t).txn = some t := rfl
@[simp] theorem State.issue_answer (s : State) (t : Txn) : (s.issue t).answer = s.answer := rfl
@[simp] theorem State.issue_ports (s : State) (t : Txn) : (s.issue t).ports = s.ports := rfl
@[simp] theorem State.issue_power (s : State) (t : Txn) : (s.issue t).power = s.power := rfl
@[simp] theorem State.issue_grant (s : State) (t : Txn) : (s.issue t).grant = s.grant := rfl
@[simp] theorem State.issue_choices (s : State) (t : Txn) : (s.issue t).choices = s.choices := rfl
@[simp] theorem State.issue_moves (s : State) (t : Txn) : (s.issue t).moves = s.moves := rfl

@[simp] theorem State.receive_params (s : State) (dir : Dir) (res : TransportResult) :
    (s.receive dir res).params = s.params := rfl
@[simp] theorem State.receive_rst (s : State) (dir : Dir) (res : TransportResult) :
    (s.receive dir res).rst = s.rst := rfl
@[simp] theorem State.receive_seq (s : State) (dir : Dir) (res : TransportResult) :
    (s.receive dir res).seq = s.seq := rfl
@[simp] theorem State.receive_tp (s : State) (dir : Dir) (res : TransportResult) : (s.receive dir res).tp = false := rfl
@[simp] theorem State.receive_cmd (s : State) (dir : Dir) (res : TransportResult) :
    (s.receive dir res).cmd = s.cmd := rfl
@[simp] theorem State.receive_owner (s : State) (dir : Dir) (res : TransportResult) :
    (s.receive dir res).owner = s.owner := rfl
@[simp] theorem State.receive_engreq (s : State) (dir : Dir) (res : TransportResult) :
    (s.receive dir res).engreq = s.engreq := rfl
@[simp] theorem State.receive_hdrTx (s : State) (dir : Dir) (res : TransportResult) :
    (s.receive dir res).hdrTx = s.hdrTx := rfl
@[simp] theorem State.receive_hdrRx (s : State) (dir : Dir) (res : TransportResult) :
    (s.receive dir res).hdrRx = (match dir with
      | .write => { b0 := rxByte res 0 0, b1 := rxByte res 0 1 }
      | .read => { b0 := rxByte res 0 0, b1 := s.hdrRx.b1 }) := rfl
@[simp] theorem State.receive_result (s : State) (dir : Dir) (res : TransportResult) :
    (s.receive dir res).result = orTerr s.result res.tstatus := rfl
@[simp] theorem State.receive_payload (s : State) (dir : Dir) (res : TransportResult) :
    (s.receive dir res).payload = s.payload := rfl
@[simp] theorem State.receive_payloadEpoch (s : State) (dir : Dir) (res : TransportResult) :
    (s.receive dir res).payloadEpoch = s.payloadEpoch := rfl
@[simp] theorem State.receive_txn (s : State) (dir : Dir) (res : TransportResult) :
    (s.receive dir res).txn = none := rfl
@[simp] theorem State.receive_answer (s : State) (dir : Dir) (res : TransportResult) :
    (s.receive dir res).answer = none := rfl
@[simp] theorem State.receive_ports (s : State) (dir : Dir) (res : TransportResult) :
    (s.receive dir res).ports = s.ports := rfl
@[simp] theorem State.receive_power (s : State) (dir : Dir) (res : TransportResult) :
    (s.receive dir res).power = s.power := rfl
@[simp] theorem State.receive_grant (s : State) (dir : Dir) (res : TransportResult) :
    (s.receive dir res).grant = s.grant := rfl
@[simp] theorem State.receive_choices (s : State) (dir : Dir) (res : TransportResult) :
    (s.receive dir res).choices = s.choices := rfl
@[simp] theorem State.receive_moves (s : State) (dir : Dir) (res : TransportResult) :
    (s.receive dir res).moves = s.moves := rfl

@[simp] theorem State.assertReset_params (s : State) : (s.assertReset).params = s.params := rfl
@[simp] theorem State.assertReset_rst (s : State) : (s.assertReset).rst = true := rfl
@[simp] theorem State.assertReset_seq (s : State) : (s.assertReset).seq = .idle := rfl
@[simp] theorem State.assertReset_tp (s : State) : (s.assertReset).tp = false := rfl
@[simp] theorem State.assertReset_cmd (s : State) : (s.assertReset).cmd = 0x00000000#32 := rfl
@[simp] theorem State.assertReset_owner (s : State) : (s.assertReset).owner = 0 := rfl
@[simp] theorem State.assertReset_engreq (s : State) : (s.assertReset).engreq = 0x00000000#32 := rfl
@[simp] theorem State.assertReset_hdrTx (s : State) : (s.assertReset).hdrTx = { b0 := 0x00#8, b1 := 0x00#8 } := rfl
@[simp] theorem State.assertReset_hdrRx (s : State) : (s.assertReset).hdrRx = { b0 := 0x00#8, b1 := 0x00#8 } := rfl
@[simp] theorem State.assertReset_result (s : State) : (s.assertReset).result = 0x00000000#32 := rfl
@[simp] theorem State.assertReset_payload (s : State) : (s.assertReset).payload = [] := rfl
@[simp] theorem State.assertReset_payloadEpoch (s : State) : (s.assertReset).payloadEpoch = s.payloadEpoch + 1 := rfl
@[simp] theorem State.assertReset_txn (s : State) : (s.assertReset).txn = none := rfl
@[simp] theorem State.assertReset_answer (s : State) : (s.assertReset).answer = none := rfl
@[simp] theorem State.assertReset_ports (s : State) :
    (s.assertReset).ports = s.ports.map (fun p => { p with waiting := false }) := rfl
@[simp] theorem State.assertReset_power (s : State) : (s.assertReset).power = s.power := rfl
@[simp] theorem State.assertReset_grant (s : State) : (s.assertReset).grant = s.grant := rfl
@[simp] theorem State.assertReset_choices (s : State) : (s.assertReset).choices = s.choices := rfl
@[simp] theorem State.assertReset_moves (s : State) : (s.assertReset).moves = s.moves := rfl

@[simp] theorem State.deassertReset_params (s : State) : (s.deassertReset).params = s.params := rfl
@[simp] theorem State.deassertReset_rst (s : State) : (s.deassertReset).rst = false := rfl
@[simp] theorem State.deassertReset_seq (s : State) : (s.deassertReset).seq = s.seq := rfl
@[simp] theorem State.deassertReset_tp (s : State) : (s.deassertReset).tp = s.tp := rfl
@[simp] theorem State.deassertReset_cmd (s : State) : (s.deassertReset).cmd = s.cmd := rfl
@[simp] theorem State.deassertReset_owner (s : State) : (s.deassertReset).owner = s.owner := rfl
@[simp] theorem State.deassertReset_engreq (s : State) : (s.deassertReset).engreq = s.engreq := rfl
@[simp] theorem State.deassertReset_hdrTx (s : State) : (s.deassertReset).hdrTx = s.hdrTx := rfl
@[simp] theorem State.deassertReset_hdrRx (s : State) : (s.deassertReset).hdrRx = s.hdrRx := rfl
@[simp] theorem State.deassertReset_result (s : State) : (s.deassertReset).result = s.result := rfl
@[simp] theorem State.deassertReset_payload (s : State) : (s.deassertReset).payload = s.payload := rfl
@[simp] theorem State.deassertReset_payloadEpoch (s : State) : (s.deassertReset).payloadEpoch = s.payloadEpoch := rfl
@[simp] theorem State.deassertReset_txn (s : State) : (s.deassertReset).txn = s.txn := rfl
@[simp] theorem State.deassertReset_answer (s : State) : (s.deassertReset).answer = s.answer := rfl
@[simp] theorem State.deassertReset_ports (s : State) : (s.deassertReset).ports = s.ports := rfl
@[simp] theorem State.deassertReset_power (s : State) : (s.deassertReset).power = s.power := rfl
@[simp] theorem State.deassertReset_grant (s : State) : (s.deassertReset).grant = s.grant := rfl
@[simp] theorem State.deassertReset_choices (s : State) : (s.deassertReset).choices = s.choices := rfl
@[simp] theorem State.deassertReset_moves (s : State) : (s.deassertReset).moves = s.moves := rfl

end Sys2Proof.Machine
end

