-- ==== Sys2Proof/Laws/Ops.lean ====
section
/-! SUPPORT. What each shared operation can do, said once: a proof about an instruction or an agent cites these and
does not unfold the operation. -/

namespace Sys2Proof.Machine

/-- The memory of the reset state has the canonical form. -/
theorem reset_payload_wf : Memory.wf State.reset.payload := List.Pairwise.nil

/-- The acceptance step happens exactly under these conditions and then has this next state (R150, R151). -/
theorem State.accept_next {s : State} {cmdw : Word} {entry : State → State} {req : Request}
    (hc : s.canAccept = true) (ho : s.offerOf s.grant = some req)
    (hw : Request.wf { cmdw := cmdw, wdata := req.wdata } = true) :
    s.accept cmdw entry = .next (entry (s.latch cmdw req.wdata)) := by
  simp [State.accept, hc, ho, hw]

/-- Everything the acceptance step can answer. -/
theorem State.accept_cases (s : State) (cmdw : Word) (entry : State → State) :
    s.accept cmdw entry = .next s ∨
    s.accept cmdw entry = .refused .malformedRequest ∨
    ∃ req, s.canAccept = true ∧ s.offerOf s.grant = some req ∧
      Request.wf { cmdw := cmdw, wdata := req.wdata } = true ∧
      s.accept cmdw entry = .next (entry (s.latch cmdw req.wdata)) := by
  unfold State.accept
  split
  · split
    · exact .inl rfl
    · rename_i hc _ req ho
      split
      · rename_i hw; exact .inr (.inr ⟨req, hc, ho, hw, rfl⟩)
      · exact .inr (.inl rfl)
  · exact .inl rfl

/-- Everything a start step can answer (R111 to R122). -/
theorem State.startTransfer_cases (s : State) (dir : Dir) (hasBuf : Bool) (addr : BitVec 9) (len : BitVec 12) :
    (∃ code, engineCheck s.params.maxFrame dir hasBuf len = some code ∧
      s.startTransfer dir hasBuf addr len = .next (s.handOutcome code)) ∨
    (engineCheck s.params.maxFrame dir hasBuf len = none ∧ s.txBytes dir hasBuf len = none ∧
      s.startTransfer dir hasBuf addr len = .fault .payloadOutOfRange) ∨
    ∃ bytes, engineCheck s.params.maxFrame dir hasBuf len = none ∧ s.txBytes dir hasBuf len = some bytes ∧
      s.startTransfer dir hasBuf addr len =
        .next ((s.populateHeader (headerFor dir addr)).issue (txnFor dir (headerFor dir addr) hasBuf len bytes)) := by
  unfold State.startTransfer
  split
  · rename_i code h; exact .inl ⟨code, h, rfl⟩
  · rename_i h
    split
    · rename_i hb; exact .inr (.inl ⟨h, hb, rfl⟩)
    · rename_i bytes hb; exact .inr (.inr ⟨bytes, h, hb, rfl⟩)

/-- Everything a completion step can answer (R123 to R127). -/
theorem State.completeTransfer_cases (s : State) (dir : Dir) (hasBuf : Bool) (len : BitVec 12)
    (res : TransportResult) :
    (res.wf (rxLengths dir hasBuf len) = false ∧
      s.completeTransfer dir hasBuf len res = .refused .malformedAnswer) ∨
    (res.wf (rxLengths dir hasBuf len) = true ∧ (s.receive dir res).storeData dir hasBuf len res = none ∧
      s.completeTransfer dir hasBuf len res = .fault .payloadOutOfRange) ∨
    ∃ t, res.wf (rxLengths dir hasBuf len) = true ∧ (s.receive dir res).storeData dir hasBuf len res = some t ∧
      s.completeTransfer dir hasBuf len res = .next (t.handOutcome (classify t.params.syncByte t.hdrRx.b0)) := by
  unfold State.completeTransfer
  split
  · rename_i hw
    split
    · rename_i h; exact .inr (.inl ⟨hw, h, rfl⟩)
    · rename_i t h; exact .inr (.inr ⟨t, hw, h, rfl⟩)
  · rename_i hw; exact .inl ⟨by simpa using hw, rfl⟩

/-- A completion step whose answer has the right shape and whose data fits (R123). -/
theorem State.completeTransfer_next {s t : State} {dir : Dir} {hasBuf : Bool} {len : BitVec 12} {res : TransportResult}
    (hw : res.wf (rxLengths dir hasBuf len) = true) (ht : (s.receive dir res).storeData dir hasBuf len res = some t) :
    s.completeTransfer dir hasBuf len res = .next (t.handOutcome (classify t.params.syncByte t.hdrRx.b0)) := by
  simp [State.completeTransfer, hw, ht]

/-- Everything storing a read's data can give: nothing to store, a store that fits, or one that does not (R127). -/
theorem State.storeData_cases (s : State) (dir : Dir) (hasBuf : Bool) (len : BitVec 12) (res : TransportResult) :
    (¬(dir = .read ∧ dataPhase hasBuf len = true) ∧ s.storeData dir hasBuf len res = some s) ∨
    (dir = .read ∧ dataPhase hasBuf len = true ∧ (res.rx.getD 1 []).length ≤ payloadBytes s.params ∧
      s.storeData dir hasBuf len res = some { s with payload := memPut s.payload 0 (res.rx.getD 1 []) }) ∨
    (dir = .read ∧ dataPhase hasBuf len = true ∧ payloadBytes s.params < (res.rx.getD 1 []).length ∧
      s.storeData dir hasBuf len res = none) := by
  unfold State.storeData
  split
  · rename_i h
    rcases s.memWrite_eq 0 (res.rx.getD 1 []) with ⟨h1, h2⟩ | ⟨h1, h2⟩
    · exact .inr (.inl ⟨h.1, h.2, by simpa using h1, h2⟩)
    · exact .inr (.inr ⟨h.1, h.2, by simpa using h1, h2⟩)
  · rename_i h; exact .inl ⟨h, rfl⟩

/-- An engine transfer takes its start step, its completion step, or no step (R110, R122). -/
theorem State.transfer_cases (s : State) (dir : Dir) (hasBuf : Bool) (addr : BitVec 9) (len : BitVec 12) :
    (s.canStart = true ∧ s.transfer dir hasBuf addr len = s.startTransfer dir hasBuf addr len) ∨
    (∃ res, s.canStart = false ∧ s.canComplete = true ∧ s.answer = some res ∧
      s.transfer dir hasBuf addr len = s.completeTransfer dir hasBuf len res) ∨
    (s.canStart = false ∧ (s.canComplete = false ∨ s.answer = none) ∧ s.transfer dir hasBuf addr len = .next s) := by
  unfold State.transfer
  split
  · rename_i h; exact .inl ⟨h, rfl⟩
  · rename_i h
    have h' : s.canStart = false := by simpa using h
    split
    · rename_i hc
      split
      · rename_i ha; exact .inr (.inr ⟨h', .inr ha, rfl⟩)
      · rename_i res ha; exact .inr (.inl ⟨res, h', hc, ha, rfl⟩)
    · rename_i hc; exact .inr (.inr ⟨h', .inl (by simpa using hc), rfl⟩)

/-- The outcome of a transfer, by SEQ (R110, R156, R158). -/
theorem State.handOutcome_cases (s : State) (ecode : Code) :
    (s.seq = .setaddr ∧ ecode = .ok ∧ s.handOutcome ecode = { s with engreq := readRequest s.cmd, seq := .data }) ∨
    (s.seq = .setaddr ∧ ecode ≠ .ok ∧ s.handOutcome ecode = s.finish .addrSetFail (codeBits ecode)) ∨
    (s.seq = .data ∧ s.handOutcome ecode = s.finish (translateCode ecode) 0#4) ∨
    (s.transferring = false ∧ s.handOutcome ecode = s) := by
  unfold State.handOutcome State.afterPositioning State.afterData State.transferring
  cases h : s.seq <;> by_cases he : ecode = .ok <;> simp [he]

/-- The two outcomes of the sync validator (R124). -/
theorem classify_cases (sync b : Byte) :
    (b = sync ∧ classify sync b = .ok) ∨ (b ≠ sync ∧ classify sync b = .nack) := by
  unfold classify
  split
  · rename_i h; exact .inl ⟨h, rfl⟩
  · rename_i h; exact .inr ⟨h, rfl⟩

/-- The checks of a start step, in their order (R111). -/
theorem engineCheck_cases (maxFrame : Nat) (dir : Dir) (hasBuf : Bool) (len : BitVec 12) :
    (maxFrame < len.toNat + hdrSize dir ∧ engineCheck maxFrame dir hasBuf len = some .frameTooLarge) ∨
    (len.toNat + hdrSize dir ≤ maxFrame ∧ dir = .read ∧ hasBuf = false ∧
      engineCheck maxFrame dir hasBuf len = some .missingBuffer) ∨
    (len.toNat + hdrSize dir ≤ maxFrame ∧ ¬(dir = .read ∧ hasBuf = false) ∧
      engineCheck maxFrame dir hasBuf len = none) := by
  unfold engineCheck
  split
  · rename_i h; exact .inl ⟨h, rfl⟩
  · rename_i h
    split
    · rename_i hb; exact .inr (.inl ⟨by omega, hb.1, hb.2, rfl⟩)
    · rename_i hb; exact .inr (.inr ⟨by omega, hb, rfl⟩)

/-- What a request that a port offers is (R21). -/
theorem State.offerOf_eq_some {s : State} {r : Nat} {req : Request} (h : s.offerOf r = some req) :
    ∃ p, s.ports[r]? = some p ∧ p.offer = some req := by
  unfold State.offerOf at h
  split at h
  · rename_i p hp; exact ⟨p, hp, h⟩
  · cases h

/-- The core's own step, with no move scheduled, is the core's step for some choice of requester, and only the counter
of free choices may differ (R150); with nothing offered it does not happen. -/
theorem ownStep_cases (s : State) :
    ownStep s = .next s ∨ (∃ pick, ownStep s = coreStep pick s) ∨
      ∃ pick, ownStep s = coreStep pick { s with choices := s.choices + 1 } := by
  unfold ownStep
  split
  · split
    · exact .inl rfl
    · exact .inr (.inl ⟨_, rfl⟩)
    · exact .inr (.inr ⟨_, rfl⟩)
  · exact .inr (.inl ⟨0, rfl⟩)

end Sys2Proof.Machine
end

