-- ==== Sys2Proof/Laws/PerInstr.lean ====
section
/-! SUPPORT. One law per instruction: its words have the fixed bits of its row of spec/opcode_table.json. -/

namespace Sys2Proof.Laws

open Sys2Proof.Machine

/-- The `mask` of an instruction's row of spec/opcode_table.json. -/
def rowMask : Instr → Nat
  | .blkWrite _ _ _ _ => 0x00000003
  | .blkRead _ _ _ _ => 0x00000003
  | .cmdReserved _ _ _ _ _ => 0x00000002
  | .xferWrite _ _ _ _ _ => 0x00000003
  | .xferRead _ _ _ _ _ => 0x00000003
  | .xferInvalid _ _ _ _ _ _ => 0x00000002
  | .hdrWrite _ => 0xFF00
  | .hdrWriteExt _ => 0xFF00
  | .hdrRead => 0xFF
  | .syncAck => 0xFF

/-- The `match` of an instruction's row of spec/opcode_table.json. -/
def rowBits : Instr → Nat
  | .blkWrite _ _ _ _ => 0x00000000
  | .blkRead _ _ _ _ => 0x00000001
  | .cmdReserved _ _ _ _ _ => 0x00000002
  | .xferWrite _ _ _ _ _ => 0x00000000
  | .xferRead _ _ _ _ _ => 0x00000001
  | .xferInvalid _ _ _ _ _ _ => 0x00000002
  | .hdrWrite _ => 0x0000
  | .hdrWriteExt _ => 0x0200
  | .hdrRead => 0x01
  | .syncAck => 0x62

/-- The words of an image as one 32-bit number, a header's byte 0 above its byte 1 (R93). -/
def imageWord : Image → Word
  | .cmd w => w
  | .engreq w => w
  | .tx bytes => bytes.foldl (fun acc b => (acc <<< 8) ||| b.setWidth 32) 0#32
  | .rx b => b.setWidth 32

/-- The fixed bits of the row, at the default SYNC_BYTE. -/
def RowMatch.Statement (i : Instr) : Prop :=
  imageWord (encode Params.default.syncByte i) &&& BitVec.ofNat 32 (rowMask i) = BitVec.ofNat 32 (rowBits i)

/-- The two low bits of a word are its OP field. -/
theorem low_bits (w : Word) : w &&& 3#32 = (w.extractLsb' 0 2).setWidth 32 := by
  apply BitVec.eq_of_getLsbD_eq
  intro i hi
  rw [BitVec.getLsbD_and, BitVec.getLsbD_setWidth, BitVec.getLsbD_extractLsb', BitVec.getLsbD_ofNat]
  match i with
  | 0 => simp
  | 1 => simp [show Nat.testBit 3 1 = true by decide]
  | n + 2 => simp [Nat.testBit_succ]

theorem low_bits_cmdWord (op : BitVec 2) (rsv0 : BitVec 6) (addr : BitVec 9) (rsv1 : BitVec 3) (len : BitVec 12) :
    cmdWord op rsv0 addr rsv1 len &&& 3#32 = op.setWidth 32 := by
  rw [low_bits]
  exact congrArg _ (cmdOp_cmdWord op rsv0 addr rsv1 len)

theorem low_bits_engWord (op : BitVec 2) (hasBuf : Bool) (rsv : BitVec 5) (addr : BitVec 9) (rsvHi : BitVec 3)
    (len : BitVec 12) : engWord op hasBuf rsv addr rsvHi len &&& 3#32 = op.setWidth 32 := by
  rw [low_bits]
  exact congrArg _ (engOp_engWord op hasBuf rsv addr rsvHi len)

/-- A word whose OP[1] is 1 has the fixed bit of the reserved rows. -/
theorem reserved_bit (w : Word) (b : BitVec 1) (h : w &&& 3#32 = (1#1 ++ b : BitVec 2).setWidth 32) :
    w &&& 2#32 = 2#32 := by
  have e : w &&& 2#32 = (w &&& 3#32) &&& 2#32 := by rw [BitVec.and_assoc]; rfl
  rw [e, h]
  clear e h
  revert b
  decide

theorem RowMatch.blkWrite (rsv0 : BitVec 6) (addr : BitVec 9) (rsv1 : BitVec 3) (len : BitVec 12) :
    RowMatch.Statement (.blkWrite rsv0 addr rsv1 len) := low_bits_cmdWord _ _ _ _ _

theorem RowMatch.blkRead (rsv0 : BitVec 6) (addr : BitVec 9) (rsv1 : BitVec 3) (len : BitVec 12) :
    RowMatch.Statement (.blkRead rsv0 addr rsv1 len) := low_bits_cmdWord _ _ _ _ _

theorem RowMatch.cmdReserved (op0 : BitVec 1) (rsv0 : BitVec 6) (addr : BitVec 9) (rsv1 : BitVec 3) (len : BitVec 12) :
    RowMatch.Statement (.cmdReserved op0 rsv0 addr rsv1 len) := reserved_bit _ op0 (low_bits_cmdWord _ _ _ _ _)

theorem RowMatch.xferWrite (hasBuf : Bool) (rsv : BitVec 5) (addr : BitVec 9) (rsvHi : BitVec 3) (len : BitVec 12) :
    RowMatch.Statement (.xferWrite hasBuf rsv addr rsvHi len) := low_bits_engWord _ _ _ _ _ _

theorem RowMatch.xferRead (hasBuf : Bool) (rsv : BitVec 5) (addr : BitVec 9) (rsvHi : BitVec 3) (len : BitVec 12) :
    RowMatch.Statement (.xferRead hasBuf rsv addr rsvHi len) := low_bits_engWord _ _ _ _ _ _

theorem RowMatch.xferInvalid (op0 : BitVec 1) (hasBuf : Bool) (rsv : BitVec 5) (addr : BitVec 9) (rsvHi : BitVec 3)
    (len : BitVec 12) : RowMatch.Statement (.xferInvalid op0 hasBuf rsv addr rsvHi len) :=
  reserved_bit _ op0 (low_bits_engWord _ _ _ _ _ _)

theorem RowMatch.hdrWrite (addrLo : Byte) : RowMatch.Statement (.hdrWrite addrLo) := by
  revert addrLo
  unfold RowMatch.Statement
  decide

theorem RowMatch.hdrWriteExt (addrLo : Byte) : RowMatch.Statement (.hdrWriteExt addrLo) := by
  revert addrLo
  unfold RowMatch.Statement
  decide

theorem RowMatch.hdrRead : RowMatch.Statement .hdrRead := by
  unfold RowMatch.Statement
  decide

theorem RowMatch.syncAck : RowMatch.Statement .syncAck := by
  unfold RowMatch.Statement
  decide

end Sys2Proof.Laws
end

