-- ==== Sys2Proof/Tests/Slice0.lean ====
section
/-! SUPPORT. The model's own tests. Expected values come from spec/95_test_vectors.md (the ids in the comments) or from
the encodings of spec/30_encoding.md, written out by hand. -/

namespace Sys2Proof.Tests

open Sys2Proof.Machine

/-! ## The checks of WellFormed refuse what is ill formed -/

/-- R21: a BLK_WRITE of LEN 2 with one byte. -/
theorem test_request_short_refused : Request.wf { cmdw := 0x00210A00#32, wdata := [0xDE#8] } = false := by decide
/-- R21: a BLK_READ with write data. -/
theorem test_request_read_with_data_refused : Request.wf { cmdw := 0x00400A01#32, wdata := [0x00#8] } = false := by
  decide
/-- K1 -/
theorem test_request_accepted : Request.wf { cmdw := 0x00210A00#32, wdata := [0xDE#8, 0xAD#8] } = true := by decide
/-- R88: a read answer whose data phase is one byte short. -/
theorem test_answer_short_refused :
    TransportResult.wf { tstatus := false, rx := [[0x62#8], [1#8, 2#8, 3#8]] } [1, 4] = false := by decide
/-- R227: a write answer with a sequence for the phase that does not receive. -/
theorem test_answer_extra_refused :
    TransportResult.wf { tstatus := false, rx := [[0x62#8, 0#8], [0#8]] } [2] = false := by decide
/-- R87: a phase of no byte. -/
theorem test_phase_empty_refused : Phase.wf { txb := none, rxl := true, n := 0 } = false := by decide
/-- R87: three phases. -/
theorem test_txn_three_phases_refused :
    txnWf [{ txb := some [1#8], rxl := true, n := 1 }, { txb := none, rxl := true, n := 1 },
      { txb := none, rxl := true, n := 1 }] = false := by decide
/-- R5: MAX_FRAME = 1. -/
theorem test_params_small_frame_refused : Params.wf { syncByte := 0x62#8, maxFrame := 1, numReq := 1 } = false := by
  decide
/-- R10: no requester. -/
theorem test_params_no_requester_refused : Params.wf { syncByte := 0x62#8, maxFrame := 768, numReq := 0 } = false := by
  decide
theorem test_params_default_accepted : Params.default.wf = true := by decide

/-! ## Decoding: one word of every row, from its encoding in 30_encoding.md -/

/-- K1: LEN 0x002, RSV1 0, ADDR 0x10A, RSV0 0, OP 00. -/
theorem test_decode_blkWrite :
    decode 0x62#8 (.cmd 0b00000000001000010000101000000000#32) = .ok (.blkWrite 0#6 266#9 0#3 2#12) := by decide
/-- K9: LEN 4, RSV1 111, ADDR 10, RSV0 111111, OP 01. -/
theorem test_decode_blkRead_reserved_bits :
    decode 0x62#8 (.cmd 0b00000000010011100000101011111101#32) = .ok (.blkRead 63#6 10#9 7#3 4#12) := by decide
/-- K7: LEN 7, ADDR 5, OP 11. -/
theorem test_decode_cmdReserved :
    decode 0x62#8 (.cmd 0b00000000011100000000010100000011#32) = .ok (.cmdReserved 1#1 0#6 5#9 0#3 7#12) := by decide
/-- E2: LEN 4, ADDR 10, HAS_BUF 1, OP 00. -/
theorem test_decode_xferWrite :
    decode 0x62#8 (.engreq 0b00000000010000000000101000000100#32) = .ok (.xferWrite true 0#5 10#9 0#3 4#12) := by decide
/-- E9: LEN 767, ADDR 0, HAS_BUF 0, OP 01. -/
theorem test_decode_xferRead :
    decode 0x62#8 (.engreq 0b00101111111100000000000000000001#32) = .ok (.xferRead false 0#5 0#9 0#3 767#12) := by decide
/-- E14: LEN 4095, OP 11. -/
theorem test_decode_xferInvalid :
    decode 0x62#8 (.engreq 0b11111111111100000000000000000011#32) = .ok (.xferInvalid 1#1 false 0#5 0#9 0#3 4095#12) := by
  decide
/-- W1, section 2: ADDR 10. -/
theorem test_decode_hdrWrite : decode 0x62#8 (.tx [0b00000000#8, 0b00001010#8]) = .ok (.hdrWrite 0x0A#8) := by decide
/-- W2, section 2: ADDR 511. -/
theorem test_decode_hdrWriteExt : decode 0x62#8 (.tx [0b00000010#8, 0b11111111#8]) = .ok (.hdrWriteExt 0xFF#8) := by decide
/-- W3 -/
theorem test_decode_hdrRead : decode 0x62#8 (.tx [0b00000001#8]) = .ok .hdrRead := by decide
/-- R125 -/
theorem test_decode_syncAck : decode 0x62#8 (.rx 0b01100010#8) = .ok .syncAck := by decide
/-- R96: a read header with the extension bit is no header. -/
theorem test_decode_0x03_refused : decode 0x62#8 (.tx [0x03#8]) = .error (.notAHeader 0x03#8) := by decide
/-- R96: a write header of one byte. -/
theorem test_decode_short_header_refused : decode 0x62#8 (.tx [0x02#8]) = .error .truncated := by decide
/-- S8: bit 7 is compared too. -/
theorem test_decode_0xE2_no_sync : decode 0x62#8 (.rx 0xE2#8) = .error (.notSync 0xE2#8) := by decide
/-- The table numbers a write header with byte 0 in bits 15:8 (R93). -/
theorem test_table_word_hdrWriteExt : decodeTableWord 16 0x020A = some (.hdrWriteExt 0x0A#8) := by decide
theorem test_table_word_syncAck : decodeTableWord 8 0x62 = some .syncAck := by decide
theorem test_table_word_cmdReserved :
    decodeTableWord 32 0xFFFFFFFF = some (.cmdReserved 1#1 63#6 511#9 7#3 4095#12) := by decide

/-! ## Encoding: the words of 95_test_vectors.md sections 3.1 and 4.1 -/

/-- K10 -/
theorem test_encode_blkWrite : encode 0x62#8 (.blkWrite 0#6 511#9 0#3 1#12) = .cmd 0x0011FF00#32 := by decide
/-- K4 -/
theorem test_encode_blkRead : encode 0x62#8 (.blkRead 0#6 511#9 0#3 767#12) = .cmd 0x2FF1FF01#32 := by decide
/-- E19: every RSV bit of 7:3 set. -/
theorem test_encode_xferWrite : encode 0x62#8 (.xferWrite true 31#5 0#9 0#3 0#12) = .engreq 0x000000FC#32 := by decide

/-! ## Small states -/

/-- The reset state with one request offered by requester 0. -/
def offered (cmdw : Word) (wdata : List Byte) : State :=
  { State.reset with
    ports := [{ offer := some { cmdw := cmdw, wdata := wdata }, waiting := false, taken := none }, ReqPort.free] }

/-- The reset state with an engine request about to start in SEQ = DATA. -/
def starting (engreq : Word) : State := { State.reset with seq := .data, engreq := engreq }

/-- The same with its transaction outstanding and the transport's answer on the port. -/
def answering (engreq : Word) (res : TransportResult) : State :=
  { State.reset with seq := .data, engreq := engreq, tp := true, answer := some res }

/-- One field of the next state, if there is one. -/
def after (o : Result) {α : Type} (f : State → α) : Option α := (nextState? o).map f

/-! ## Commands -/

/-- BW1, step 1: the entry actions of BLK_WRITE. -/
theorem test_blkWrite_entry :
    after (exec (.blkWrite 0#6 266#9 0#3 2#12) (offered 0x00210A00#32 [0xDE#8, 0xAD#8]))
      (fun t => (t.seq, t.engreq, t.power, t.payload))
    = some (.data, 0x00210A04#32, [.activeInc], [(0, 0xDE#8), (1, 0xAD#8)]) := by decide
/-- R151, BW7 in small: with MAX_FRAME = 2 a payload of one byte is not latched, and the command is accepted. -/
theorem test_blkWrite_too_large_latches_nothing :
    after (exec (.blkWrite 0#6 5#9 0#3 1#12)
      { offered 0x00100500#32 [0x01#8] with params := { Params.default with maxFrame := 2 } })
      (fun t => (t.seq, t.payload, t.power)) = some (.data, [], [.activeInc]) := by decide
/-- BR1, step 1. -/
theorem test_blkRead_entry :
    after (exec (.blkRead 0#6 10#9 0#3 4#12) (offered 0x00400A01#32 []))
      (fun t => (t.seq, t.tp, t.engreq, t.result, t.power))
    = some (.setaddr, false, 0x00000A00#32, 0#32, [.activeInc]) := by decide
/-- K9: reserved bits set; the positioning request is written with RSV = 0. -/
theorem test_blkRead_reserved_bits_ignored :
    after (exec (.blkRead 63#6 10#9 7#3 4#12) (offered 0x004E0AFD#32 [])) (fun t => (t.cmd, t.engreq))
    = some (0x004E0AFD#32, 0x00000A00#32) := by decide
/-- RV1 -/
theorem test_cmdReserved_result :
    after (exec (.cmdReserved 0#1 0#6 0#9 0#3 0#12) (offered 0x00000002#32 []))
      (fun t => (t.seq, t.result, t.power, t.engreq, t.tp)) = some (.resp, 0x102#32, [], 0#32, false) := by decide
/-- R152: no command is accepted while SEQ is not IDLE. -/
theorem test_cmdReserved_waits_for_lock :
    nextState? (exec (.cmdReserved 0#1 0#6 0#9 0#3 0#12) { offered 0x00000002#32 [] with seq := .resp })
    = some { offered 0x00000002#32 [] with seq := .resp } := by decide

/-! ## Engine requests -/

/-- E13: XFER.W 511, buf, 0 is header only. -/
theorem test_xferWrite_header_only :
    after (exec (.xferWrite true 0#5 511#9 0#3 0#12) (starting 0x0001FF04#32)) (fun t => (t.hdrTx, t.tp, t.txn))
    = some ({ b0 := 0x02#8, b1 := 0xFF#8 }, true,
        some [{ txb := some [0x02#8, 0xFF#8], rxl := true, n := 2 }]) := by decide
/-- R130's example: XFER.W 266, buf, 2 with PAYLOAD = [DE, AD]. -/
theorem test_xferWrite_data_phase :
    after (exec (.xferWrite true 0#5 266#9 0#3 2#12)
      { starting 0x00210A04#32 with payload := [(0, 0xDE#8), (1, 0xAD#8)] })
      (fun t => t.txn.map wireBytes) = some (some [0x02#8, 0x0A#8, 0xDE#8, 0xAD#8]) := by decide
/-- E3: XFER.R 10, buf, 4. -/
theorem test_xferRead_issue :
    after (exec (.xferRead true 0#5 10#9 0#3 4#12) (starting 0x00400A05#32)) (fun t => (t.hdrTx, t.txn))
    = some ({ b0 := 0x01#8, b1 := 0x00#8 },
        some [{ txb := some [0x01#8], rxl := true, n := 1 }, { txb := none, rxl := true, n := 4 }]) := by decide
/-- E8: the size check comes before the buffer check. -/
theorem test_xferRead_check_order : engineCheck 768 .read false 800#12 = some .frameTooLarge := by decide
/-- E4, E5, E6, E7, E9, E11: the limits of the checks. -/
theorem test_engineCheck_limits :
    engineCheck 768 .write true 766#12 = none ∧ engineCheck 768 .write true 767#12 = some .frameTooLarge ∧
    engineCheck 768 .read true 767#12 = none ∧ engineCheck 768 .read true 768#12 = some .frameTooLarge ∧
    engineCheck 768 .read false 767#12 = some .missingBuffer ∧
    engineCheck 768 .write false 767#12 = some .frameTooLarge := by decide
/-- E14: INVALID_OP whatever LEN is, and no transaction. -/
theorem test_xferInvalid :
    after (exec (.xferInvalid 1#1 false 0#5 0#9 0#3 4095#12) (starting 0xFFF00003#32))
      (fun t => (t.seq, t.result, t.tp, t.txn)) = some (.resp, 0x102#32, false, none) := by decide
/-- S2: a transport failure with a good sync byte is OK with TERR = 1. -/
theorem test_xferWrite_suppressed_failure :
    after (exec (.xferWrite true 0#5 10#9 0#3 0#12)
      (answering 0x00000A04#32 { tstatus := true, rx := [[0x62#8, 0x00#8]] }))
      (fun t => (t.seq, t.result, t.hdrRx, t.tp))
    = some (.resp, 0x200#32, { b0 := 0x62#8, b1 := 0x00#8 }, false) := by decide
/-- S13: payload bytes never judge success; PAYLOAD is written all the same. -/
theorem test_xferRead_nack :
    after (exec (.xferRead true 0#5 10#9 0#3 4#12)
      (answering 0x00400A05#32 { tstatus := false, rx := [[0x61#8], [0x62#8, 0x62#8, 0x62#8, 0x62#8]] }))
      (fun t => (t.result, t.hdrRx, t.payload))
    = some (0x005#32, { b0 := 0x61#8, b1 := 0x00#8 },
        [(0, 0x62#8), (1, 0x62#8), (2, 0x62#8), (3, 0x62#8)]) := by decide

/-! ## Wire rows -/

theorem test_hdrWrite : after (exec (.hdrWrite 0x7F#8) (starting 0#32)) (·.hdrTx) = some { b0 := 0x00#8, b1 := 0x7F#8 } := by
  decide
theorem test_hdrWriteExt :
    after (exec (.hdrWriteExt 0x2C#8) (starting 0#32)) (·.hdrTx) = some { b0 := 0x02#8, b1 := 0x2C#8 } := by decide
/-- W11 -/
theorem test_hdrRead :
    after (exec .hdrRead { starting 0#32 with hdrTx := { b0 := 0x02#8, b1 := 0x0A#8 } }) (·.hdrTx)
    = some { b0 := 0x01#8, b1 := 0x00#8 } := by decide
/-- BR1, step 3: the positioning write is acknowledged and the read request takes its place. -/
theorem test_syncAck_positioning :
    after (exec .syncAck
      { answering 0x00000A00#32 { tstatus := false, rx := [[0x62#8, 0x00#8]] } with seq := .setaddr, cmd := 0x00400A01#32 })
      (fun t => (t.seq, t.tp, t.engreq, t.hdrRx, t.result))
    = some (.data, false, 0x00400A05#32, { b0 := 0x62#8, b1 := 0x00#8 }, 0#32) := by decide

/-! ## The sync validator and the result word -/

/-- S3 to S10 -/
theorem test_classify :
    classify 0x62#8 0x62#8 = .ok ∧ classify 0x62#8 0x61#8 = .nack ∧ classify 0x62#8 0x63#8 = .nack ∧
    classify 0x62#8 0xE2#8 = .nack ∧ classify 0x62#8 0x26#8 = .nack ∧ classify 0xA5#8 0xA5#8 = .ok := by decide
/-- Section 4.2: BR3's result word keeps TERR. -/
theorem test_result_word : setOutcome (orTerr 0#32 true) .addrSetFail (codeBits .nack) = 0x316#32 := by decide

/-! ## Agents -/

/-- BR2: a NACK of the positioning write through the transport's move. -/
theorem test_transport_nack :
    after (step { starting 0x00000A00#32 with
      seq := .setaddr, tp := true, cmd := 0x00400A01#32,
      moves := [.transport { tstatus := false, rx := [[0x61#8, 0x00#8]] }] })
      (fun t => (t.seq, t.result, t.power)) = some (.resp, 0x116#32, [.idleDec]) := by decide
/-- BR1, step 6: the owner takes the response with its data. -/
theorem test_take_response :
    after (step { State.reset with
      seq := .resp, cmd := 0x00200A01#32, payload := [(0, 0xA1#8), (1, 0xA2#8)], moves := [.take 0] })
      (fun t => (t.seq, (t.ports.map (·.taken)))) =
    some (.idle, [some { resultw := 0#32, rdata := [0xA1#8, 0xA2#8] }, none]) := by decide
/-- RS1: reset abandons the outstanding transaction. -/
theorem test_reset_abandons :
    after (step { answering 0x00400A05#32 { tstatus := false, rx := [] } with cmd := 0x00400A01#32, moves := [.resetAssert] })
      (fun t => (t.rst, t.tp, t.engreq, t.power)) = some (true, false, 0#32, []) := by decide
/-- R220, I11: an answer after reset is never consumed. -/
theorem test_late_answer_dropped :
    after (step { State.reset with moves := [.transport { tstatus := false, rx := [[0x62#8, 0#8]] }] })
      (fun t => (t.hdrRx, t.seq)) = some ({ b0 := 0#8, b1 := 0#8 }, .idle) := by decide
/-- R225: a malformed request is refused at the port. -/
theorem test_malformed_offer_refused :
    nextState? (step { State.reset with moves := [.offer 0 { cmdw := 0x00100000#32, wdata := [] }] }) = none := by decide
/-- R150: with one request pending and no move scheduled, the core accepts it by itself. -/
theorem test_core_accepts_alone :
    after (step { State.reset with
      ports := [ReqPort.free, { ReqPort.free with offer := some { cmdw := 0x00100101#32, wdata := [] } }] })
      (fun t => (t.seq, t.owner)) = some (.setaddr, 1) := by decide

/-! ## withFetchWord runs the word it is given as the first instruction after reset -/

theorem test_fetch_blkWrite :
    after (step (State.reset.withFetchWord 32 0x00200A00)) (fun t => (t.cmd, t.engreq, t.seq))
    = some (0x00200A00#32, 0x00200A04#32, .data) := by decide
theorem test_fetch_hdrWriteExt :
    after (step (State.reset.withFetchWord 16 0x020A)) (·.hdrTx) = some { b0 := 0x02#8, b1 := 0x0A#8 } := by decide
theorem test_fetch_hdrRead :
    after (step (State.reset.withFetchWord 8 0x01)) (·.hdrTx) = some { b0 := 0x01#8, b1 := 0x00#8 } := by decide
theorem test_fetch_syncAck :
    after (step (State.reset.withFetchWord 8 0x62)) (fun t => (t.seq, t.hdrRx.b0)) = some (.resp, 0x62#8) := by decide

/-! ## States that meet the hypotheses of the statements

One theorem `witness_<statement>` (with a suffix for a clause of its own) for each statement that has hypotheses. -/

/-- MAX_FRAME = 4: the largest write has 2 payload bytes, the largest read 3 (R113). -/
def small : Params := { Params.default with maxFrame := 4 }

/-- SEQ = IDLE, requester 0 offers `req`, requester 1 nothing. -/
def pending (req : Request) (moves : List Move) : State :=
  { State.reset with params := small, ports := [{ ReqPort.free with offer := some req }, ReqPort.free], moves := moves }

/-- A command of requester 0 in progress, its engine transfer about to start. -/
def running (seq : Seq) (cmd engreq : Word) (payload : Memory) (moves : List Move) : State :=
  { State.reset with
    params := small, seq := seq, cmd := cmd, engreq := engreq, payload := payload
    ports := [{ ReqPort.free with waiting := true }, ReqPort.free], power := [.activeInc], moves := moves }

/-- The same once its transaction is on the transport port. -/
def issued (seq : Seq) (cmd engreq : Word) (payload : Memory) (hdr : HdrReg) (txn : Txn) (moves : List Move) : State :=
  { running seq cmd engreq payload moves with tp := true, hdrTx := hdr, txn := some txn }

/-- BLK_WRITE 10, 2 with its transaction outstanding. -/
def writeIssued (moves : List Move) : State :=
  issued .data 0x00200A00#32 0x00200A04#32 [(0, 0xDE#8), (1, 0xAD#8)] { b0 := 0x00#8, b1 := 0x0A#8 }
    [{ txb := some [0x00#8, 0x0A#8], rxl := true, n := 2 }, { txb := some [0xDE#8, 0xAD#8], rxl := false, n := 2 }] moves

/-- BLK_READ 10, 3 with its read transaction outstanding. -/
def readIssued (moves : List Move) : State :=
  issued .data 0x00300A01#32 0x00300A05#32 [] { b0 := 0x01#8, b1 := 0x00#8 }
    [{ txb := some [0x01#8], rxl := true, n := 1 }, { txb := none, rxl := true, n := 3 }] moves

/-- BLK_READ 10, 3 with its positioning write outstanding. -/
def positioningIssued (moves : List Move) : State :=
  issued .setaddr 0x00300A01#32 0x00000A00#32 [] { b0 := 0x00#8, b1 := 0x0A#8 }
    [{ txb := some [0x00#8, 0x0A#8], rxl := true, n := 2 }] moves

/-- A BLK_READ of 2 bytes whose result is posted. -/
def responding (moves : List Move) : State := running .resp 0x00200A01#32 0x00200A05#32 [(0, 0xA1#8), (1, 0xA2#8)] moves

/-- What `State.Inv` asks of the ports and PAYLOAD of a state with two requesters and RESET deasserted. -/
abbrev ChecksPorts (s : State) (p : ReqPort) : Prop :=
  s.ports = [p, ReqPort.free] ∧ s.owner = 0 ∧ (p.waiting = true ↔ s.seq ≠ .idle) ∧
  (p.offer.all (fun req => req.wf && !p.waiting)) = true ∧ Memory.wf s.payload ∧
  Memory.below s.payload (payloadBytes s.params)

/-- What it asks of the registers and parameters. -/
abbrev ChecksRegs (s : State) : Prop :=
  s.params.wf = true ∧ s.params.numReq = 2 ∧ s.rst = false ∧ s.answer = none ∧ (s.tp = false → s.txn = none) ∧
  s.result ∈ reachableResults ∧ (s.transferring = true → s.result = 0x000#32 ∨ s.result = 0x200#32) ∧
  (s.hdrTx.b0 = 0x00#8 ∨ s.hdrTx.b0 = 0x02#8 ∨ s.hdrTx = { b0 := 0x01#8, b1 := 0x00#8 })

/-- What it asks of the requests that a command makes. -/
abbrev ChecksRequests (s : State) : Prop :=
  (s.seq = .setaddr → cmdOp s.cmd = 1#2 ∧ s.engreq = setaddrRequest s.cmd) ∧
  (s.seq = .data →
    (cmdOp s.cmd = 0#2 ∧ s.engreq = writeRequest s.cmd) ∨ (cmdOp s.cmd = 1#2 ∧ s.engreq = readRequest s.cmd))

/-- What it asks of the bytes of PAYLOAD that have been written. -/
abbrev ChecksData (s : State) : Prop :=
  (s.seq = .data → cmdOp s.cmd = 0#2 → (cmdLen s.cmd).toNat + 2 ≤ s.params.maxFrame →
    ∀ a, a < (cmdLen s.cmd).toNat → (memGet s.payload a).isSome = true) ∧
  (s.seq = .resp → cmdOp s.cmd = 1#2 → resCode s.result = codeBits .ok →
    (cmdLen s.cmd).toNat ≤ payloadBytes s.params ∧
      ∀ a, a < (cmdLen s.cmd).toNat → (memGet s.payload a).isSome = true)

theorem inv_of_checks {s : State} (p : ReqPort) (h1 : ChecksPorts s p) (h2 : ChecksRegs s) (h3 : ChecksRequests s)
    (h4 : ChecksData s) (ho : s.tp = true → s.transferring = true ∧ s.Outstanding) : s.Inv := by
  obtain ⟨hp, hown, hl, hof, hm, hb⟩ := h1
  obtain ⟨hw, hn, hr, ha, ht, hres, hrun, hh⟩ := h2
  refine ⟨hw, by simp [hp, hn], by omega, hm, hb, ha, by simp [hr], h3.1, h3.2, ho, ht, hres, hrun, h4.1, h4.2, hh, ?_, ?_⟩
  · intro r x hx
    rw [hp] at hx
    match r with
    | 0 => cases hx; simpa [hown] using hl
    | 1 => cases hx; simp [ReqPort.free, hown]
    | n + 2 => cases hx
  · intro r x req hx hoff
    rw [hp] at hx
    match r with
    | 0 => cases hx; simpa [hoff] using hof
    | 1 => cases hx; cases hoff
    | n + 2 => cases hx

/-- The moves play no part in the invariant. -/
theorem inv_moves {s : State} (h : s.Inv) (moves : List Move) : State.Inv { s with moves := moves } := by
  obtain ⟨a, b, c, d, e, f, g, i, j, k, l, m, n, o, p, q, r, t⟩ := h
  refine ⟨a, b, c, d, e, f, g, i, j, fun ht => ⟨(k ht).1, ?_⟩, l, m, n, o, p, q, r, t⟩
  obtain ⟨dir, bytes, h1, h2, h3, h4, h5⟩ := (k ht).2
  refine ⟨dir, bytes, h1, h2, ?_, h4, h5⟩
  rw [← h3]
  exact State.txBytes_congr (s := s) (t := { s with moves := moves }) rfl rfl rfl dir _ _

theorem not_outstanding {s : State} (h : s.tp = false) : s.tp = true → s.transferring = true ∧ s.Outstanding := by
  intro h'; rw [h] at h'; cases h'

/-- A concrete outstanding transaction, given its operation and the bytes it transmits. -/
theorem outstanding_of {s : State} (dir : Dir) (bytes : List Byte) (h0 : s.transferring = true)
    (h1 : opDir (engOp s.engreq) = some dir)
    (h2 : engineCheck s.params.maxFrame dir (engHasBuf s.engreq) (engLen s.engreq) = none)
    (h3 : s.txBytes dir (engHasBuf s.engreq) (engLen s.engreq) = some bytes)
    (h4 : s.hdrTx = headerFor dir (engAddr s.engreq))
    (h5 : s.txn = some (txnFor dir s.hdrTx (engHasBuf s.engreq) (engLen s.engreq) bytes)) :
    s.tp = true → s.transferring = true ∧ s.Outstanding := fun _ => ⟨h0, dir, bytes, h1, h2, h3, h4, h5⟩

/-- The port of a requester that waits. -/
def busy : ReqPort := { offer := none, waiting := true, taken := none }

/-- An idle state of the invariant, for a request that is well formed. -/
theorem pending_inv (req : Request) (h : req.wf = true) (moves : List Move) : (pending req moves).Inv :=
  inv_of_checks { ReqPort.free with offer := some req }
    ⟨rfl, rfl, by simp [ReqPort.free, pending, State.reset], by simpa [ReqPort.free] using h, List.Pairwise.nil,
      fun c hc => by cases hc⟩
    ⟨show small.wf = true by decide, rfl, rfl, rfl, fun _ => rfl, by simp [pending, State.reset, reachableResults], fun _ => .inl rfl, .inl rfl⟩
    ⟨fun hs => (by cases hs), fun hs => (by cases hs)⟩ ⟨fun hs => (by cases hs), fun hs => (by cases hs)⟩
    (not_outstanding rfl)

theorem writeStarting_inv : (running .data 0x00200A00#32 0x00200A04#32 [(0, 0xDE#8), (1, 0xAD#8)] []).Inv :=
  inv_of_checks busy (by decide) (by decide) (by decide) (by decide) (not_outstanding rfl)
theorem readOversize_inv : (running .data 0x00400A01#32 0x00400A05#32 [] []).Inv :=
  inv_of_checks busy (by decide) (by decide) (by decide) (by decide) (not_outstanding rfl)
theorem writeIssued_inv : (writeIssued []).Inv :=
  inv_of_checks busy (by decide) (by decide) (by decide) (by decide)
    (outstanding_of .write [0xDE#8, 0xAD#8] (by decide) (by decide) (by decide) (by decide) (by decide) (by decide))
theorem readIssued_inv : (readIssued []).Inv :=
  inv_of_checks busy (by decide) (by decide) (by decide) (by decide)
    (outstanding_of .read [] (by decide) (by decide) (by decide) (by decide) (by decide) (by decide))
theorem positioningIssued_inv : (positioningIssued []).Inv :=
  inv_of_checks busy (by decide) (by decide) (by decide) (by decide)
    (outstanding_of .write [] (by decide) (by decide) (by decide) (by decide) (by decide) (by decide))
theorem responding_inv : (responding []).Inv :=
  inv_of_checks busy (by decide) (by decide) (by decide) (by decide) (not_outstanding rfl)

/-- The premises of the acceptance statements. -/
abbrev Accepting (s : State) (req : Request) : Prop :=
  s.rst = false ∧ s.tp = false ∧ s.seq = .idle ∧ s.offerOf s.grant = some req

/-- The premises of the start statements. -/
abbrev Starting (s : State) : Prop := s.rst = false ∧ s.tp = false ∧ (s.seq = .setaddr ∨ s.seq = .data)

/-- The premises of the completion statements. -/
abbrev Completing (s : State) (res : TransportResult) : Prop :=
  s.rst = false ∧ s.tp = true ∧ (s.seq = .setaddr ∨ s.seq = .data) ∧ s.answer = some res

/-! Encodings and checks. -/

theorem witness_EncodeInvertsDecode : decode 0x62#8 (.tx [0x02#8, 0xFF#8]) = .ok (.hdrWriteExt 0xFF#8) := by decide
theorem witness_CommandWordDecodesByOp :
    (0x00210A00#32).extractLsb' 0 2 = 0b00#2 ∧ (0x00400A01#32).extractLsb' 0 2 = 0b01#2 ∧
    (0x00000002#32).extractLsb' 0 2 = 0b10#2 ∧ (0xFFFFFFFF#32).extractLsb' 0 2 = 0b11#2 := by decide
theorem witness_EngineRequestDecodesByOp :
    (0x00400A04#32).extractLsb' 0 2 = 0b00#2 ∧ (0x00400A05#32).extractLsb' 0 2 = 0b01#2 ∧
    (0xFFF00003#32).getLsbD 1 = true ∧ (0x00000002#32).getLsbD 1 = true ∧ opDir (engOp 0x00400A05#32) = some .read := by
  decide
theorem witness_BufferCheckOnlyForReads :
    (767#12).toNat + hdrSize .read ≤ 768 ∧ (766#12).toNat + hdrSize .write ≤ 768 := by decide

/-! Commands, at the largest write that fits and at the smallest that does not. -/

theorem witness_BlkWriteAccepted_fits :
    Accepting (offered 0x2FE00A00#32 (List.replicate 766 0#8)) { cmdw := 0x2FE00A00#32, wdata := List.replicate 766 0#8 } ∧
    (List.replicate 766 0#8).length = (766#12).toNat ∧ (766#12).toNat + 2 ≤ Params.default.maxFrame :=
  ⟨⟨rfl, rfl, rfl, rfl⟩, List.length_replicate.trans (by decide), by decide⟩
theorem witness_BlkWriteAccepted_oversize :
    Accepting (offered 0x2FF00A00#32 (List.replicate 767 0#8)) { cmdw := 0x2FF00A00#32, wdata := List.replicate 767 0#8 } ∧
    (List.replicate 767 0#8).length = (767#12).toNat ∧ ¬((767#12).toNat + 2 ≤ Params.default.maxFrame) :=
  ⟨⟨rfl, rfl, rfl, rfl⟩, List.length_replicate.trans (by decide), by decide⟩
theorem witness_BlkReadAccepted : Accepting (offered 0x00400A01#32 []) { cmdw := 0x00400A01#32, wdata := [] } :=
  ⟨rfl, rfl, rfl, rfl⟩
theorem witness_CmdReservedCompletesAtOnce :
    Accepting (offered 0x00700503#32 []) { cmdw := 0x00700503#32, wdata := [] } := ⟨rfl, rfl, rfl, rfl⟩
theorem witness_MalformedRequestsRefused :
    Accepting (offered 0x00200A00#32 [0#8]) { cmdw := 0x00200A00#32, wdata := [0#8] } ∧
    ([0#8] : List Byte).length ≠ (2#12).toNat ∧ ([0#8] : List Byte) ≠ [] := ⟨⟨rfl, rfl, rfl, rfl⟩, by decide, by decide⟩
theorem witness_NoCommandAcceptedOutsideIdle : (responding []).seq ≠ .idle := by decide

/-! Engine transfers. -/

theorem witness_XferWriteStarts :
    Starting (starting 0x2FE00A04#32) ∧ (766#12).toNat + 2 ≤ (starting 0x2FE00A04#32).params.maxFrame := by decide
theorem witness_XferReadStarts :
    Starting (starting 0x2FF00A05#32) ∧ (767#12).toNat + 1 ≤ (starting 0x2FF00A05#32).params.maxFrame := by decide
theorem witness_ContractViolationsTouchNoBus :
    Starting (starting 0#32) ∧ (starting 0#32).params.maxFrame < (767#12).toNat + 2 ∧
    (starting 0#32).params.maxFrame < (768#12).toNat + 1 ∧ (767#12).toNat + 1 ≤ (starting 0#32).params.maxFrame ∧
    Code.frameTooLarge ≠ .ok := by decide
theorem witness_XferInvalidRejected :
    (starting 2#32).rst = false ∧ (starting 2#32).tp = false ∧ (starting 2#32).seq = .data ∧
    ({ starting 2#32 with seq := .setaddr } : State).seq = .setaddr := by decide
theorem witness_DataRequestIsNeverInvalid : (readIssued []).Inv ∧ (readIssued []).transferring = true :=
  ⟨readIssued_inv, rfl⟩
theorem witness_XferWriteCompletes :
    Completing (answering 0x00200A04#32 { tstatus := true, rx := [[0x61#8, 0#8]] })
      { tstatus := true, rx := [[0x61#8, 0#8]] } := ⟨rfl, rfl, .inr rfl, rfl⟩
theorem witness_XferReadCompletes_data :
    Completing (answering 0x2FF00A05#32 { tstatus := false, rx := [[0x62#8], List.replicate 767 0#8] })
      { tstatus := false, rx := [[0x62#8], List.replicate 767 0#8] } ∧
    (List.replicate 767 0#8).length = (767#12).toNat ∧ 0 < (767#12).toNat ∧ (767#12).toNat ≤ payloadBytes Params.default :=
  ⟨⟨rfl, rfl, .inr rfl, rfl⟩, List.length_replicate.trans (by decide), by decide, by decide⟩
theorem witness_XferReadCompletes_no_data :
    Completing (answering 0x00000A05#32 { tstatus := false, rx := [[0x62#8]] }) { tstatus := false, rx := [[0x62#8]] } ∧
    (0#12).toNat = 0 := ⟨⟨rfl, rfl, .inr rfl, rfl⟩, rfl⟩
theorem witness_PositioningOutcome : (positioningIssued []).seq = .setaddr ∧ 2 ≤ small.maxFrame := by decide
theorem witness_DataTransferOutcome :
    (running .data 0x00400A01#32 0x00400A05#32 [] []).Inv ∧
    ∃ t, exec (decodeEng 0x00400A05#32) (running .data 0x00400A01#32 0x00400A05#32 [] []) = .next t ∧ t.seq = .resp :=
  ⟨readOversize_inv, _, rfl, rfl⟩
theorem witness_SyncAckEndsTransferWithOk :
    Completing (answering 0x00200A05#32 { tstatus := true, rx := [[0x62#8], [1#8, 2#8]] })
      { tstatus := true, rx := [[0x62#8], [1#8, 2#8]] } ∧
    opDir (engOp 0x00200A05#32) = some .read ∧
    TransportResult.wf { tstatus := true, rx := [[0x62#8], [1#8, 2#8]] } (rxLengths .read true 2#12) = true ∧
    (2#12).toNat ≤ payloadBytes Params.default := ⟨⟨rfl, rfl, .inr rfl, rfl⟩, by decide, by decide, by decide⟩
theorem witness_SyncAckEndsTransferWithOk_write :
    Completing (answering 0x00200A04#32 { tstatus := false, rx := [[0x62#8, 0x5A#8]] })
      { tstatus := false, rx := [[0x62#8, 0x5A#8]] } ∧
    opDir (engOp 0x00200A04#32) = some .write ∧
    TransportResult.wf { tstatus := false, rx := [[0x62#8, 0x5A#8]] } (rxLengths .write true 2#12) = true ∧
    (2#12).toNat ≤ payloadBytes Params.default := ⟨⟨rfl, rfl, .inr rfl, rfl⟩, by decide, by decide, by decide⟩
/-- LEN = 0, and a first byte other than SYNC_BYTE (log entry 11). -/
theorem witness_SyncAckEndsTransferWithOk_header_only :
    Completing (answering 0x00000A05#32 { tstatus := false, rx := [[0x61#8]] }) { tstatus := false, rx := [[0x61#8]] } ∧
    opDir (engOp 0x00000A05#32) = some .read ∧
    TransportResult.wf { tstatus := false, rx := [[0x61#8]] } (rxLengths .read true 0#12) = true ∧
    (0#12).toNat ≤ payloadBytes Params.default := ⟨⟨rfl, rfl, .inr rfl, rfl⟩, by decide, by decide, by decide⟩
theorem witness_SyncAckAgreesWithEngineRequest :
    Completing (answering 0x00200A04#32 { tstatus := false, rx := [[0x62#8, 0#8]] })
      { tstatus := false, rx := [[0x62#8, 0#8]] } ∧
    rxByte { tstatus := false, rx := [[0x62#8, 0#8]] } 0 0 = Params.default.syncByte :=
  ⟨⟨rfl, rfl, .inr rfl, rfl⟩, by decide⟩
theorem witness_TransportFailureOnlySetsTerr :
    ∃ t, (writeIssued []).completeTransfer .write true 2#12 { tstatus := false, rx := [[0x62#8, 0#8]] } = .next t :=
  ⟨_, rfl⟩
theorem witness_ReceivedDataNeverJudged :
    ([1#8, 2#8, 3#8] : List Byte).length = ([4#8, 5#8, 6#8] : List Byte).length ∧
    ∃ t, (readIssued []).completeTransfer .read true 3#12 { tstatus := false, rx := [[0x62#8], [1#8, 2#8, 3#8]] } = .next t :=
  ⟨rfl, _, rfl⟩
theorem witness_HeaderRowsWriteHdrTx : Starting (starting 0#32) := by decide
theorem witness_StartStepRunsItsHeaderRow :
    Starting (starting 0#32) ∧ engineCheck (starting 0#32).params.maxFrame .write true 766#12 = none ∧
    engineCheck (starting 0#32).params.maxFrame .read true 767#12 = none := by decide

/-! PAYLOAD. -/

theorem witness_ResultCodesInvariant : (responding []).Inv := responding_inv
theorem witness_BlkWritePayloadFrame_fits :
    Accepting (pending { cmdw := 0x00200A00#32, wdata := [1#8, 2#8] } []) { cmdw := 0x00200A00#32, wdata := [1#8, 2#8] } ∧
    (2#12).toNat + 2 ≤ small.maxFrame ∧
    ∃ t, exec (.blkWrite 0#6 10#9 0#3 2#12) (pending { cmdw := 0x00200A00#32, wdata := [1#8, 2#8] } []) = .next t :=
  ⟨⟨rfl, rfl, rfl, rfl⟩, by decide, _, rfl⟩
theorem witness_BlkWritePayloadFrame_oversize :
    Accepting (pending { cmdw := 0x00300A00#32, wdata := [1#8, 2#8, 3#8] } [])
      { cmdw := 0x00300A00#32, wdata := [1#8, 2#8, 3#8] } ∧ small.maxFrame < (3#12).toNat + 2 ∧
    ∃ t, exec (.blkWrite 0#6 10#9 0#3 3#12) (pending { cmdw := 0x00300A00#32, wdata := [1#8, 2#8, 3#8] } []) = .next t :=
  ⟨⟨rfl, rfl, rfl, rfl⟩, by decide, _, rfl⟩
theorem witness_XferReadPayloadFrame :
    ∃ t, exec (.xferRead true 0#5 10#9 0#3 3#12)
      { readIssued [] with answer := some { tstatus := false, rx := [[0x62#8], [1#8, 2#8, 3#8]] } } = .next t ∧
    State.canComplete { readIssued [] with answer := some { tstatus := false, rx := [[0x62#8], [1#8, 2#8, 3#8]] } } = true ∧
    0 < (3#12).toNat := ⟨_, rfl, by decide, by decide⟩
theorem witness_OtherInstructionsKeepPayload :
    (∃ t, exec (.xferRead true 0#5 10#9 0#3 3#12) (running .data 0x00300A01#32 0x00300A05#32 [] []) = .next t) ∧
    (∃ t, exec (.xferRead true 0#5 10#9 0#3 0#12)
      (answering 0x00000A05#32 { tstatus := false, rx := [[0x62#8]] }) = .next t) ∧
    (∃ t, exec .syncAck (answering 0x00000A04#32 { tstatus := false, rx := [[0x62#8, 0#8]] }) = .next t) ∧
    engOp 0x00000A04#32 ≠ 1#2 := ⟨⟨_, rfl⟩, ⟨_, rfl⟩, ⟨_, rfl⟩, by decide⟩
/-- SYNC_ACK completing a header-only read: with a buffer and LEN = 0, and with LEN = 3 and no buffer. -/
theorem witness_OtherInstructionsKeepPayload_syncAck :
    (∃ t, exec .syncAck (answering 0x00000A05#32 { tstatus := false, rx := [[0x62#8]] }) = .next t) ∧
    dataPhase (engHasBuf 0x00000A05#32) (engLen 0x00000A05#32) = false ∧
    (∃ t, exec .syncAck (answering 0x00300A01#32 { tstatus := false, rx := [[0x62#8]] }) = .next t) ∧
    dataPhase (engHasBuf 0x00300A01#32) (engLen 0x00300A01#32) = false := ⟨⟨_, rfl⟩, by decide, ⟨_, rfl⟩, by decide⟩
theorem witness_PayloadStaysCanonical :
    Memory.wf (responding [.resetAssert]).payload ∧ ∃ t, step (responding [.resetAssert]) = .next t :=
  ⟨by decide, _, rfl⟩
theorem witness_OnlyNamedStepsWritePayload_accept :
    ∃ t, step (pending { cmdw := 0x00200A00#32, wdata := [1#8, 2#8] } [.core 0]) = .next t ∧ t.payload ≠ [] :=
  ⟨_, rfl, by decide⟩
theorem witness_OnlyNamedStepsWritePayload_read :
    ∃ t, step (readIssued [.transport { tstatus := false, rx := [[0x62#8], [1#8, 2#8, 3#8]] }]) = .next t ∧
      t.payload ≠ (readIssued []).payload := ⟨_, rfl, by decide⟩
theorem witness_OnlyNamedStepsWritePayload_reset :
    ∃ t, step (responding [.resetAssert]) = .next t ∧ t.payload ≠ (responding []).payload := ⟨_, rfl, by decide⟩

/-! The machine. -/

theorem witness_StepRunsDecodedInstruction_command :
    (offered 0x00400A01#32 []).offerOf 0 = some { cmdw := 0x00400A01#32, wdata := [] } ∧
    (offered 0x00400A01#32 []).rst = false ∧ (offered 0x00400A01#32 []).tp = false ∧
    (offered 0x00400A01#32 []).seq = .idle ∧ decode 0x62#8 (.cmd 0x00400A01#32) = .ok (.blkRead 0#6 10#9 0#3 4#12) := by
  decide
theorem witness_StepRunsDecodedInstruction_engine :
    Starting (running .data 0x00300A01#32 0x00300A05#32 [] [.core 0]) ∧
    decode 0x62#8 (.engreq 0x00300A05#32) = .ok (.xferRead true 0#5 10#9 0#3 3#12) := by decide
theorem witness_StepRunsDecodedInstruction_transport :
    (writeIssued []).rst = false ∧ (writeIssued []).tp = true ∧ (writeIssued []).seq = .data ∧
    decode 0x62#8 (.engreq (writeIssued []).engreq) = .ok (.xferWrite true 0#5 10#9 0#3 2#12) := by decide
theorem witness_CoreAloneAcceptsAPendingRequest :
    (pending { cmdw := 0x00400A01#32, wdata := [] } []).Inv ∧
    (pending { cmdw := 0x00400A01#32, wdata := [] } []).offerOf 0 = some { cmdw := 0x00400A01#32, wdata := [] } :=
  ⟨pending_inv _ (by decide) _, rfl⟩
theorem witness_OnlyDeliveryOrResetReleasesLock_take :
    ∃ t, step (responding [.take 0]) = .next t ∧ (responding [.take 0]).seq ≠ .idle ∧ t.seq = .idle :=
  ⟨_, rfl, by decide, rfl⟩
theorem witness_OnlyDeliveryOrResetReleasesLock_reset :
    ∃ t, step (writeIssued [.resetAssert]) = .next t ∧ (writeIssued [.resetAssert]).seq ≠ .idle ∧ t.seq = .idle :=
  ⟨_, rfl, by decide, rfl⟩
theorem witness_OnlyAcceptanceWritesCmdAndOwner_accept :
    ∃ t, step (pending { cmdw := 0x00000002#32, wdata := [] } [.core 0]) = .next t ∧ t.cmd ≠ 0#32 :=
  ⟨_, rfl, by decide⟩
theorem witness_OnlyAcceptanceWritesCmdAndOwner_reset :
    ∃ t, step (responding [.resetAssert]) = .next t ∧ t.cmd ≠ (responding []).cmd := ⟨_, rfl, by decide⟩
theorem witness_OneTransactionOutstanding_issue :
    (running .data 0x00200A00#32 0x00200A04#32 [(0, 0xDE#8), (1, 0xAD#8)] [.core 0]).Inv ∧
    ∃ t, step (running .data 0x00200A00#32 0x00200A04#32 [(0, 0xDE#8), (1, 0xAD#8)] [.core 0]) = .next t ∧ t.tp = true :=
  ⟨inv_moves writeStarting_inv [.core 0], _, rfl, rfl⟩
theorem witness_OneTransactionOutstanding_wait :
    (writeIssued [.core 0]).Inv ∧ ∃ t, step (writeIssued [.core 0]) = .next t ∧ t.tp = true :=
  ⟨inv_moves writeIssued_inv [.core 0], _, rfl, rfl⟩
theorem witness_OneTransactionOutstanding_answer :
    (writeIssued [.transport { tstatus := false, rx := [[0x62#8, 0#8]] }]).Inv ∧
    ∃ t, step (writeIssued [.transport { tstatus := false, rx := [[0x62#8, 0#8]] }]) = .next t ∧ t.tp = false :=
  ⟨inv_moves writeIssued_inv [.transport { tstatus := false, rx := [[0x62#8, 0#8]] }], _, rfl, rfl⟩
theorem witness_CoreWaitsForTheTransport :
    (writeIssued []).tp = true ∧ (writeIssued []).seq ≠ .idle ∧ (writeIssued []).moves = [] := by decide
theorem witness_DeliveryGivesOwnerItsResponse_data :
    let s := running .resp 0x00300A01#32 0x00300A05#32 [(0, 1#8), (1, 2#8), (2, 3#8)] []
    s.rst = false ∧ s.seq = .resp ∧ 0 = s.owner ∧ cmdOp s.cmd = 1#2 ∧ resCode s.result = 0#4 ∧
      (cmdLen s.cmd).toNat ≤ payloadBytes s.params := by decide
theorem witness_DeliveryGivesOwnerItsResponse_empty :
    let s := running .resp 0x00200A00#32 0x00200A04#32 [] []
    s.rst = false ∧ s.seq = .resp ∧ 0 = s.owner ∧ ¬(cmdOp s.cmd = 1#2 ∧ resCode s.result = 0#4) := by decide
theorem witness_DeliveryGivesOwnerItsResponse_not_enabled : (responding []).seq = .resp ∧ 1 ≠ (responding []).owner := by
  decide
theorem witness_RequestPortProtocol :
    (offered 0x00400A01#32 []).ports[0]? =
      some { offer := some { cmdw := 0x00400A01#32, wdata := [] }, waiting := false, taken := none } ∧
    (writeIssued []).ports[0]? = some busy ∧ State.reset.ports[1]? = some ReqPort.free ∧
    Request.wf { cmdw := 0x00210A00#32, wdata := [0xDE#8, 0xAD#8] } = true ∧
    Request.wf { cmdw := 0x00210A00#32, wdata := [0xDE#8] } = false := by decide
theorem witness_ResetTakesEffectInAnyState : (writeIssued [.resetAssert]).moves = .resetAssert :: [] := rfl
theorem witness_NoStepWhileResetAsserted : (State.assertReset (writeIssued [])).rst = true := rfl
theorem witness_ParametersAreFixed : ∃ t, step (responding [.take 0]) = .next t := ⟨_, rfl⟩
theorem witness_EveryStepKeepsInvariant :
    (readIssued [.transport { tstatus := true, rx := [[0x62#8], [1#8, 2#8, 3#8]] }]).Inv ∧
    ∃ t, step (readIssued [.transport { tstatus := true, rx := [[0x62#8], [1#8, 2#8, 3#8]] }]) = .next t :=
  ⟨inv_moves readIssued_inv [.transport { tstatus := true, rx := [[0x62#8], [1#8, 2#8, 3#8]] }], _, rfl⟩
theorem witness_NoStepFaults : (positioningIssued []).Inv := positioningIssued_inv
theorem witness_OnlyMalformedInputsRefused_offer :
    (responding [.offer 1 { cmdw := 0x00100A00#32, wdata := [] }]).Inv ∧
    step (responding [.offer 1 { cmdw := 0x00100A00#32, wdata := [] }]) = .refused .malformedRequest :=
  ⟨inv_moves responding_inv [.offer 1 { cmdw := 0x00100A00#32, wdata := [] }], rfl⟩
theorem witness_OnlyMalformedInputsRefused_answer :
    (writeIssued [.transport { tstatus := false, rx := [[0x62#8]] }]).Inv ∧
    step (writeIssued [.transport { tstatus := false, rx := [[0x62#8]] }]) = .refused .malformedAnswer :=
  ⟨inv_moves writeIssued_inv [.transport { tstatus := false, rx := [[0x62#8]] }], rfl⟩
/-- Both at MAX_FRAME = 4 bytes. -/
theorem witness_TransactionsFitTheFrame :
    (writeIssued []).Inv ∧ (writeIssued []).txn.isSome = true ∧ (readIssued []).Inv ∧ (readIssued []).txn.isSome = true :=
  ⟨writeIssued_inv, rfl, readIssued_inv, rfl⟩
theorem witness_OwnerFitsItsWidth : (responding []).Inv := responding_inv

/-! Whole commands, at MAX_FRAME = 4. -/

theorem witness_BlkWriteRunsToItsResponse :
    (pending { cmdw := 0x00200A00#32, wdata := [1#8, 2#8] }
      [.core 0, .core 0, .transport { tstatus := true, rx := [[0x62#8, 0#8]] }, .take 0]).Inv ∧
    cmdOp 0x00200A00#32 = 0#2 ∧ (cmdLen 0x00200A00#32).toNat + 2 ≤ small.maxFrame :=
  ⟨pending_inv _ (by decide) _, by decide, by decide⟩
theorem witness_OversizeBlkWriteRejected :
    (pending { cmdw := 0x00300A00#32, wdata := [1#8, 2#8, 3#8] } [.core 0, .core 0, .take 0]).Inv ∧
    cmdOp 0x00300A00#32 = 0#2 ∧ small.maxFrame < (cmdLen 0x00300A00#32).toNat + 2 :=
  ⟨pending_inv _ (by decide) _, by decide, by decide⟩
theorem witness_BlkReadRunsToItsResponse :
    (pending { cmdw := 0x00300A01#32, wdata := [] }
      [.core 0, .core 0, .transport { tstatus := false, rx := [[0x62#8, 0#8]] }, .core 0,
        .transport { tstatus := true, rx := [[0x62#8], [1#8, 2#8, 3#8]] }, .take 0]).Inv ∧
    cmdOp 0x00300A01#32 = 1#2 ∧ (cmdLen 0x00300A01#32).toNat + 1 ≤ small.maxFrame ∧
    ([1#8, 2#8, 3#8] : List Byte).length = (cmdLen 0x00300A01#32).toNat :=
  ⟨pending_inv _ (by decide) _, by decide, by decide, by decide⟩
theorem witness_PositioningNackEndsBlkRead :
    (pending { cmdw := 0x00300A01#32, wdata := [] }
      [.core 0, .core 0, .transport { tstatus := false, rx := [[0x61#8, 0#8]] }, .take 0]).Inv ∧
    cmdOp 0x00300A01#32 = 1#2 ∧ 0x61#8 ≠ small.syncByte := ⟨pending_inv _ (by decide) _, by decide, by decide⟩
theorem witness_OversizeBlkReadRejectedAfterPositioning :
    (pending { cmdw := 0x00400A01#32, wdata := [] }
      [.core 0, .core 0, .transport { tstatus := true, rx := [[0x62#8, 0#8]] }, .core 0, .take 0]).Inv ∧
    cmdOp 0x00400A01#32 = 1#2 ∧ small.maxFrame < (cmdLen 0x00400A01#32).toNat + 1 :=
  ⟨pending_inv _ (by decide) _, by decide, by decide⟩

end Sys2Proof.Tests
end

section
/-! SUPPORT. What one step can do, said once: each effect of an instruction on the state, and each agent's step as
one of them. -/

namespace Sys2Proof.Machine

/-- The effects an instruction can have on the state, each with the guards under which it happens
(R15, R111 to R127, R151). -/
inductive State.Effect (s : State) : State → Prop
  /-- R15: the step is not enabled and does not happen. -/
  | unchanged : s.Effect s
  /-- R150, R151: a request is accepted; the entry actions go by its operation code. -/
  | accepted (cmdw : Word) (entry : State → State) (req : Request) (hc : s.canAccept = true)
      (ho : s.offerOf s.grant = some req) (hw : Request.wf { cmdw := cmdw, wdata := req.wdata } = true)
      (he : (cmdOp cmdw = 0#2 ∧ entry = State.enterWrite) ∨ (cmdOp cmdw = 1#2 ∧ entry = State.enterRead) ∨
        (cmdOp cmdw ≠ 0#2 ∧ cmdOp cmdw ≠ 1#2 ∧ entry = State.enterReserved)) :
      s.Effect (entry (s.latch cmdw req.wdata))
  /-- R111: a start step whose checks fail hands their code over. -/
  | rejected (code : Code) (hs : s.canStart = true) : s.Effect (s.handOutcome code)
  /-- R115 to R117: the header encoder's action alone (log entry 11). -/
  | encoded (h : HdrReg) (hs : s.canStart = true) : s.Effect (s.populateHeader h)
  /-- R115 to R122: a start step whose checks pass issues its transaction. -/
  | issued (dir : Dir) (hasBuf : Bool) (addr : BitVec 9) (len : BitVec 12) (bytes : List Byte)
      (hs : s.canStart = true) (hk : engineCheck s.params.maxFrame dir hasBuf len = none)
      (hb : s.txBytes dir hasBuf len = some bytes) :
      s.Effect ((s.populateHeader (headerFor dir addr)).issue (txnFor dir (headerFor dir addr) hasBuf len bytes))
  /-- R123 to R127: a completion step. -/
  | completed (dir : Dir) (hasBuf : Bool) (len : BitVec 12) (res : TransportResult) (t : State)
      (hc : s.canComplete = true) (hw : res.wf (rxLengths dir hasBuf len) = true)
      (ht : (s.receive dir res).storeData dir hasBuf len res = some t) :
      s.Effect (t.handOutcome (classify t.params.syncByte t.hdrRx.b0))

theorem accept_effect {s t : State} {cmdw : Word} {entry : State → State}
    (he : (cmdOp cmdw = 0#2 ∧ entry = State.enterWrite) ∨ (cmdOp cmdw = 1#2 ∧ entry = State.enterRead) ∨
      (cmdOp cmdw ≠ 0#2 ∧ cmdOp cmdw ≠ 1#2 ∧ entry = State.enterReserved))
    (h : s.accept cmdw entry = .next t) : s.Effect t := by
  rcases s.accept_cases cmdw entry with ha | ha | ⟨req, hc, ho, hw, ha⟩ <;> cases ha.symm.trans h
  · exact .unchanged
  · exact .accepted cmdw entry req hc ho hw he

theorem startTransfer_effect {s t : State} {dir : Dir} {hasBuf : Bool} {addr : BitVec 9} {len : BitVec 12}
    (hs : s.canStart = true) (h : s.startTransfer dir hasBuf addr len = .next t) : s.Effect t := by
  rcases s.startTransfer_cases dir hasBuf addr len with ⟨code, _, ha⟩ | ⟨_, _, ha⟩ | ⟨bytes, hk, hb, ha⟩ <;>
    cases ha.symm.trans h
  · exact .rejected code hs
  · exact .issued dir hasBuf addr len bytes hs hk hb

theorem completeTransfer_effect {s t : State} {dir : Dir} {hasBuf : Bool} {len : BitVec 12} {res : TransportResult}
    (hc : s.canComplete = true) (h : s.completeTransfer dir hasBuf len res = .next t) : s.Effect t := by
  rcases s.completeTransfer_cases dir hasBuf len res with ⟨_, ha⟩ | ⟨_, _, ha⟩ | ⟨u, hw, hu, ha⟩ <;>
    cases ha.symm.trans h
  exact .completed dir hasBuf len res u hc hw hu

theorem transfer_effect {s t : State} {dir : Dir} {hasBuf : Bool} {addr : BitVec 9} {len : BitVec 12}
    (h : s.transfer dir hasBuf addr len = .next t) : s.Effect t := by
  rcases s.transfer_cases dir hasBuf addr len with ⟨hs, ha⟩ | ⟨res, _, hc, _, ha⟩ | ⟨_, _, ha⟩
  · exact startTransfer_effect hs (ha.symm.trans h)
  · exact completeTransfer_effect hc (ha.symm.trans h)
  · cases ha.symm.trans h
    exact .unchanged

theorem rejectTransfer_effect {s t : State} {code : Code} (h : s.rejectTransfer code = .next t) : s.Effect t := by
  unfold State.rejectTransfer at h
  split at h <;> cases h
  · exact .rejected code ‹_›
  · exact .unchanged

theorem encodeHeader_effect {s t : State} {hdr : HdrReg} (h : s.encodeHeader hdr = .next t) : s.Effect t := by
  unfold State.encodeHeader at h
  split at h <;> cases h
  · exact .encoded hdr ‹_›
  · exact .unchanged

theorem execSyncAck_effect {s t : State} (h : execSyncAck s = .next t) : s.Effect t := by
  unfold execSyncAck at h
  split at h
  · split at h
    · exact completeTransfer_effect ‹_› h
    · cases h
      exact .unchanged
  · cases h
    exact .unchanged

/-- Every instruction has one of the effects on the state. -/
theorem exec_effect {i : Instr} {s t : State} (h : exec i s = .next t) : s.Effect t := by
  cases i with
  | blkWrite rsv0 addr rsv1 len => exact accept_effect (.inl ⟨cmdOp_cmdWord .., rfl⟩) h
  | blkRead rsv0 addr rsv1 len => exact accept_effect (.inr (.inl ⟨cmdOp_cmdWord .., rfl⟩)) h
  | cmdReserved op0 rsv0 addr rsv1 len =>
    obtain ⟨hop0, hop1⟩ := reservedOp_ne op0
    rw [← cmdOp_cmdWord (1#1 ++ op0) rsv0 addr rsv1 len] at hop0 hop1
    exact accept_effect (.inr (.inr ⟨hop0, hop1, rfl⟩)) h
  | xferWrite hasBuf rsv addr rsvHi len => exact transfer_effect h
  | xferRead hasBuf rsv addr rsvHi len => exact transfer_effect h
  | xferInvalid op0 hasBuf rsv addr rsvHi len => exact rejectTransfer_effect h
  | hdrWrite addrLo => exact encodeHeader_effect h
  | hdrWriteExt addrLo => exact encodeHeader_effect h
  | hdrRead => exact encodeHeader_effect h
  | syncAck => exact execSyncAck_effect h

/-- The core's step, by SEQ: it does not happen, it runs the command of the chosen requester, or it runs the engine
request in ENGREQ (R20, R111, R150). -/
theorem coreStep_cases (pick : Nat) (s : State) :
    coreStep pick s = .next s ∨
    (∃ req, s.canAccept = true ∧ s.offerOf pick = some req ∧
      coreStep pick s = exec (decodeCmd req.cmdw) { s with grant := pick }) ∨
    (s.canStart = true ∧ coreStep pick s = exec (decodeEng s.engreq) s) := by
  unfold coreStep State.canAccept State.canStart State.transferring
  cases s.rst with
  | true => exact .inl rfl
  | false =>
    cases s.tp with
    | true => exact .inl rfl
    | false =>
      cases s.seq with
      | idle =>
        cases s.offerOf pick with
        | none => exact .inl rfl
        | some req => exact .inr (.inl ⟨req, rfl, rfl, rfl⟩)
      | setaddr => exact .inr (.inr ⟨rfl, rfl⟩)
      | data => exact .inr (.inr ⟨rfl, rfl⟩)
      | resp => exact .inl rfl

/-- The transport's step: its answer is not consumed, or the received byte's instruction or ENGREQ's completes the
transaction (R123, R125). -/
theorem transportStep_cases (res : TransportResult) (s : State) :
    transportStep res s = .next s ∨
    (s.canComplete = true ∧ rxByte res 0 0 = s.params.syncByte ∧
      transportStep res s = exec .syncAck { s with answer := some res }) ∨
    (s.canComplete = true ∧ rxByte res 0 0 ≠ s.params.syncByte ∧
      transportStep res s = exec (decodeEng s.engreq) { s with answer := some res }) := by
  unfold transportStep
  split
  · rename_i hc
    by_cases hb : rxByte res 0 0 = s.params.syncByte
    · exact .inr (.inl ⟨hc, hb, by rw [decodeRx, if_pos hb]⟩)
    · exact .inr (.inr ⟨hc, hb, by rw [decodeRx, if_neg hb]⟩)
  · exact .inl rfl

/-- A requester's offer: it does not happen, it is put on the port, or it is malformed and refused (R21). -/
theorem offerStep_cases (r : Nat) (req : Request) (s : State) :
    offerStep r req s = .next s ∨
    (∃ p, s.ports[r]? = some p ∧ p.offer = none ∧ p.waiting = false ∧ req.wf = true ∧
      offerStep r req s = .next (s.updatePort r fun q => { q with offer := some req })) ∨
    (req.wf = false ∧ offerStep r req s = .refused .malformedRequest) := by
  unfold offerStep
  split
  · exact .inl rfl
  · rename_i p hp
    split
    · exact .inl rfl
    · rename_i hfree
      obtain ⟨hoffer, hwait⟩ : p.offer = none ∧ p.waiting = false := by simpa using hfree
      split
      · rename_i hw
        exact .inr (.inl ⟨p, hp, hoffer, hwait, hw, rfl⟩)
      · rename_i hw
        exact .inr (.inr ⟨by simpa using hw, rfl⟩)

/-- The delivery step: it does not happen, the owner takes the response, or the response's data lies outside the buffer
(R22, R161). -/
theorem takeStep_cases (r : Nat) (s : State) :
    takeStep r s = .next s ∨
    (∃ resp, s.rst = false ∧ s.seq = .resp ∧ r = s.owner ∧ s.response = some resp ∧
      takeStep r s = .next (s.deliver resp)) ∨
    (s.rst = false ∧ s.seq = .resp ∧ r = s.owner ∧ s.response = none ∧
      takeStep r s = .fault .payloadOutOfRange) := by
  unfold takeStep
  split
  · rename_i hen
    obtain ⟨⟨hrst, hseq⟩, howner⟩ : (s.rst = false ∧ s.seq = .resp) ∧ r = s.owner := by simpa using hen
    split
    · rename_i hr
      exact .inr (.inr ⟨hrst, hseq, howner, hr, rfl⟩)
    · rename_i resp hr
      exact .inr (.inl ⟨resp, hrst, hseq, howner, hr, rfl⟩)
  · exact .inl rfl

end Sys2Proof.Machine
end

section
/-! The design-time parameters: no effect and no agent changes them. -/

namespace Sys2Proof.Machine

@[simp] theorem handOutcome_params (s : State) (code : Code) : (s.handOutcome code).params = s.params := by
  rcases s.handOutcome_cases code with ⟨_, _, h⟩ | ⟨_, _, h⟩ | ⟨_, h⟩ | ⟨_, h⟩ <;> simp [h]

theorem storeData_params {s t : State} {dir : Dir} {hasBuf : Bool} {len : BitVec 12} {res : TransportResult}
    (h : s.storeData dir hasBuf len res = some t) : t.params = s.params := by
  rcases s.storeData_cases dir hasBuf len res with ⟨_, hs⟩ | ⟨_, _, _, hs⟩ | ⟨_, _, _, hs⟩ <;>
    cases hs.symm.trans h <;> rfl

theorem State.Effect.params_eq {s t : State} (h : s.Effect t) : t.params = s.params := by
  cases h with
  | unchanged => rfl
  | accepted cmdw entry req hc ho hw he => rcases he with ⟨_, rfl⟩ | ⟨_, rfl⟩ | ⟨_, _, rfl⟩ <;> simp
  | rejected code hs => simp
  | encoded hdr hs => simp
  | issued dir hasBuf addr len bytes hs hk hb => simp
  | completed dir hasBuf len res u hc hw hu => simpa using storeData_params hu

theorem coreStep_params {pick : Nat} {s t : State} (h : coreStep pick s = .next t) : t.params = s.params := by
  rcases coreStep_cases pick s with hc | ⟨req, _, _, hc⟩ | ⟨_, hc⟩
  · cases hc.symm.trans h
    rfl
  · exact (exec_effect (hc.symm.trans h)).params_eq
  · exact (exec_effect (hc.symm.trans h)).params_eq

theorem transportStep_params {res : TransportResult} {s t : State} (h : transportStep res s = .next t) :
    t.params = s.params := by
  rcases transportStep_cases res s with hc | ⟨_, _, hc⟩ | ⟨_, _, hc⟩
  · cases hc.symm.trans h
    rfl
  · exact (exec_effect (hc.symm.trans h)).params_eq
  · exact (exec_effect (hc.symm.trans h)).params_eq

theorem offerStep_params {r : Nat} {req : Request} {s t : State} (h : offerStep r req s = .next t) :
    t.params = s.params := by
  rcases offerStep_cases r req s with ho | ⟨p, _, _, _, _, ho⟩ | ⟨_, ho⟩ <;> cases ho.symm.trans h <;> rfl

theorem takeStep_params {r : Nat} {s t : State} (h : takeStep r s = .next t) : t.params = s.params := by
  rcases takeStep_cases r s with ht | ⟨resp, _, _, _, _, ht⟩ | ⟨_, _, _, _, ht⟩ <;> cases ht.symm.trans h <;> rfl

theorem moveStep_params {m : Move} {s t : State} (h : moveStep m s = .next t) : t.params = s.params := by
  cases m with
  | offer r req => exact offerStep_params h
  | core pick => exact coreStep_params h
  | transport res => exact transportStep_params h
  | take r => exact takeStep_params h
  | power => cases h; rfl
  | resetAssert => cases h; rfl
  | resetDeassert => cases h; rfl

theorem ownStep_params {s t : State} (h : ownStep s = .next t) : t.params = s.params := by
  rcases ownStep_cases s with ho | ⟨pick, ho⟩ | ⟨pick, ho⟩
  · cases ho.symm.trans h
    rfl
  · exact coreStep_params (ho.symm.trans h)
  · exact (coreStep_params (ho.symm.trans h) :)

/-- Settles O49: every agent's step is one of the effects, or an update of the ports, the power queue or the registers,
and none of them writes the parameters. -/
theorem parametersAreFixed : Obligations.ParametersAreFixed := by
  intro s t h
  unfold step at h
  split at h
  · exact (moveStep_params h :)
  · exact ownStep_params h

end Sys2Proof.Machine
end

section
/-! The shape and size of the one transaction of an engine transfer (R87, R119 to R121). -/

namespace Sys2Proof.Machine

@[simp] theorem headerBytes_length (dir : Dir) (h : HdrReg) : (headerBytes dir h).length = hdrSize dir := by
  cases dir <;> rfl

theorem hdrSize_pos (dir : Dir) : 1 ≤ hdrSize dir := by cases dir <;> decide

theorem dataPhase_iff {hasBuf : Bool} {len : BitVec 12} :
    dataPhase hasBuf len = true ↔ hasBuf = true ∧ 0 < len.toNat := by
  simp [dataPhase]

/-- The bytes of a write's data phase are LEN many (R119). -/
theorem txBytes_length {s : State} {dir : Dir} {hasBuf : Bool} {len : BitVec 12} {bytes : List Byte}
    (h : s.txBytes dir hasBuf len = some bytes) (hd : dir = .write) (hp : dataPhase hasBuf len = true) :
    bytes.length = len.toNat := by
  rw [State.txBytes, if_pos ⟨hd, hp⟩] at h
  unfold State.memRead at h
  split at h <;> cases h
  exact s.readFrom_length _ _

@[simp] theorem headerPhase_n (dir : Dir) (h : HdrReg) : (headerPhase dir h).n = hdrSize dir := rfl
@[simp] theorem headerPhase_rxl (dir : Dir) (h : HdrReg) : (headerPhase dir h).rxl = true := rfl
@[simp] theorem headerPhase_txb (dir : Dir) (h : HdrReg) :
    (headerPhase dir h).txb = some (headerBytes dir h) := rfl

theorem headerPhase_wf (dir : Dir) (h : HdrReg) : (headerPhase dir h).wf = true := by
  simp [Phase.wf, hdrSize_pos]

theorem dataPhaseOf_wf {dir : Dir} {bytes : List Byte} {len : BitVec 12} (hpos : 0 < len.toNat)
    (hb : dir = .write → bytes.length = len.toNat) : (dataPhaseOf dir bytes len).wf = true := by
  cases dir with
  | write => simp [Phase.wf, dataPhaseOf, hb rfl, Nat.one_le_iff_ne_zero, hpos.ne']
  | read => simp [Phase.wf, dataPhaseOf, Nat.one_le_iff_ne_zero, hpos.ne']

@[simp] theorem dataPhaseOf_n (dir : Dir) (bytes : List Byte) (len : BitVec 12) :
    (dataPhaseOf dir bytes len).n = len.toNat := by
  cases dir <;> rfl

/-- The transaction of a transfer is a well-formed descriptor, given the bytes its data phase transmits (R87). -/
theorem txnFor_wf {dir : Dir} {hasBuf : Bool} {len : BitVec 12} {bytes : List Byte} (h : HdrReg)
    (hb : dir = .write → dataPhase hasBuf len = true → bytes.length = len.toNat) :
    txnWf (txnFor dir h hasBuf len bytes) = true := by
  have hhead := headerPhase_wf dir h
  unfold txnFor
  split
  · rename_i hp
    have hdata := dataPhaseOf_wf (dataPhase_iff.mp hp).2 fun hd => hb hd hp
    simp [txnWf, hhead, hdata]
  · simp [txnWf, hhead]

/-- A transaction carries its header and at most LEN bytes of data (R121). -/
theorem txnFor_size_le (dir : Dir) (h : HdrReg) (hasBuf : Bool) (len : BitVec 12) (bytes : List Byte) :
    ((txnFor dir h hasBuf len bytes).map (·.n)).sum ≤ len.toNat + hdrSize dir := by
  unfold txnFor
  split
  · simp [Nat.add_comm]
  · simp

/-- R63: a well-formed phase clocks out as many bytes as it states. -/
theorem phaseWireBytes_length {p : Phase} (h : p.wf = true) : (phaseWireBytes p).length = p.n := by
  unfold Phase.wf at h
  unfold phaseWireBytes
  cases hb : p.txb with
  | some bs =>
    rw [hb] at h
    obtain ⟨_, hlen⟩ : 1 ≤ p.n ∧ bs.length = p.n := by simpa using h
    exact hlen
  | none => exact List.length_replicate

theorem txnWf_phases {txn : Txn} (h : txnWf txn = true) : ∀ p ∈ txn, p.wf = true := by
  simp only [txnWf, Bool.and_eq_true, List.all_eq_true] at h
  obtain ⟨⟨_, hall⟩, _⟩ := h
  exact hall

/-- R63: a well-formed transaction clocks out the bytes of its phases, as many as they state. -/
theorem wireBytes_length {txn : Txn} (h : txnWf txn = true) : (wireBytes txn).length = (txn.map (·.n)).sum := by
  rw [wireBytes, List.length_flatMap]
  exact congrArg List.sum (List.map_congr_left fun p hp => phaseWireBytes_length (txnWf_phases h p hp))

/-- R113: a transfer whose checks pass fits the frame. -/
theorem fits_of_engineCheck_none {maxFrame : Nat} {dir : Dir} {hasBuf : Bool} {len : BitVec 12}
    (h : engineCheck maxFrame dir hasBuf len = none) : len.toNat + hdrSize dir ≤ maxFrame := by
  rcases engineCheck_cases maxFrame dir hasBuf len with ⟨_, hc⟩ | ⟨_, _, _, hc⟩ | ⟨hfit, _, _⟩
  · cases hc.symm.trans h
  · cases hc.symm.trans h
  · exact hfit

/-- A transaction on the port is one that is outstanding (R28, R72). -/
theorem State.Inv.outstanding_of_txn {s : State} {txn : Txn} (hi : s.Inv) (ht : s.txn = some txn) : s.Outstanding := by
  cases htp : s.tp with
  | true => exact (hi.outstanding htp).2
  | false => cases (hi.no_txn htp).symm.trans ht

/-- Settles O54: the transaction on the port is the one `txnFor` builds for a request whose checks passed. -/
theorem transactionsFitTheFrame : Obligations.TransactionsFitTheFrame := by
  intro s txn hi ht
  obtain ⟨dir, bytes, _, hcheck, hbytes, _, htxn⟩ := hi.outstanding_of_txn ht
  cases ht.symm.trans htxn
  have hwf := txnFor_wf s.hdrTx (txBytes_length hbytes)
  exact ⟨hwf, (txnFor_size_le ..).trans (fits_of_engineCheck_none hcheck), wireBytes_length hwf⟩

end Sys2Proof.Machine
end

section
/-! The received data: it reaches PAYLOAD and nothing else (R3, R125, R127). -/

namespace Sys2Proof.Machine

/-- Two byte sequences are the answer to a read with a data phase and to no other transfer (R88). -/
theorem wf_two_sequences_iff {dir : Dir} {hasBuf : Bool} {len : BitVec 12} {tstatus : Bool} {rx0 bytes : List Byte} :
    TransportResult.wf { tstatus := tstatus, rx := [rx0, bytes] } (rxLengths dir hasBuf len) = true ↔
      dir = .read ∧ dataPhase hasBuf len = true ∧ rx0.length = 1 ∧ bytes.length = len.toNat := by
  cases dir with
  | write => simp [TransportResult.wf, rxLengths]
  | read => cases hp : dataPhase hasBuf len <;> simp [TransportResult.wf, rxLengths, hp]

/-- Storing a read's data phase: it fits, and PAYLOAD takes it (R127). -/
theorem storeData_read_iff {s u : State} {hasBuf : Bool} {len : BitVec 12} {res : TransportResult}
    (hp : dataPhase hasBuf len = true) :
    s.storeData .read hasBuf len res = some u ↔ (res.rx.getD 1 []).length ≤ payloadBytes s.params ∧
      u = { s with payload := memPut s.payload 0 (res.rx.getD 1 []) } := by
  rcases s.storeData_cases .read hasBuf len res with ⟨hn, _⟩ | ⟨_, _, hfit, hs⟩ | ⟨_, _, hbig, hs⟩
  · exact absurd ⟨rfl, hp⟩ hn
  · simp only [hs, hfit, true_and, Option.some.injEq, eq_comm]
  · simp only [hs, hbig.not_ge, false_and, reduceCtorEq]

theorem afterPositioning_withPayload (s : State) (m : Memory) (code : Code) :
    State.afterPositioning { s with payload := m } code = { s.afterPositioning code with payload := m } := by
  unfold State.afterPositioning
  split
  · rfl
  · rfl

/-- No outcome of a transfer reads or writes PAYLOAD (R156, R158). -/
theorem handOutcome_withPayload (s : State) (m : Memory) (code : Code) :
    State.handOutcome { s with payload := m } code = { s.handOutcome code with payload := m } := by
  cases hs : s.seq with
  | idle => simp only [State.handOutcome, hs]
  | setaddr => simpa only [State.handOutcome, hs] using afterPositioning_withPayload s m code
  | data =>
    simp only [State.handOutcome, hs]
    rfl
  | resp => simp only [State.handOutcome, hs]

/-- The completion of a read with a data phase that fits: the outcome goes by the header byte, and PAYLOAD alone takes
the data (R123, R125, R127). -/
theorem completeTransfer_read_data {s : State} {hasBuf : Bool} {len : BitVec 12} {rx0 bytes : List Byte}
    (tstatus : Bool) (hp : dataPhase hasBuf len = true) (h0 : rx0.length = 1) (hl : bytes.length = len.toNat)
    (hfit : bytes.length ≤ payloadBytes s.params) :
    s.completeTransfer .read hasBuf len { tstatus := tstatus, rx := [rx0, bytes] } =
      .next { (s.receive .read { tstatus := tstatus, rx := [rx0] }).handOutcome
        (classify s.params.syncByte (rx0.getD 0 0#8)) with payload := memPut s.payload 0 bytes } := by
  rw [State.completeTransfer_next (wf_two_sequences_iff.mpr ⟨rfl, hp, h0, hl⟩)
    ((storeData_read_iff hp).mpr ⟨hfit, rfl⟩), handOutcome_withPayload]
  rfl

/-- Settles O27: both answers complete a read with a data phase, and their next states are one outcome over one received
state but for PAYLOAD. -/
theorem receivedDataNeverJudged : Obligations.ReceivedDataNeverJudged := by
  intro s dir hasBuf len tstatus rx0 bytes bytes' t hlen h
  rcases s.completeTransfer_cases dir hasBuf len { tstatus := tstatus, rx := [rx0, bytes] } with
    ⟨_, hc⟩ | ⟨_, _, hc⟩ | ⟨u, hw, hstore, _⟩
  · cases hc.symm.trans h
  · cases hc.symm.trans h
  · obtain ⟨rfl, hp, h0, hl⟩ := wf_two_sequences_iff.mp hw
    have hfit : bytes.length ≤ payloadBytes s.params := ((storeData_read_iff hp).mp hstore).1
    rw [completeTransfer_read_data tstatus hp h0 hl hfit] at h
    cases h
    have hl' : bytes'.length = len.toNat := hlen.symm.trans hl
    have hfit' : bytes'.length ≤ payloadBytes s.params := hlen ▸ hfit
    exact ⟨memPut s.payload 0 bytes', completeTransfer_read_data tstatus hp h0 hl' hfit'⟩

end Sys2Proof.Machine
end

section
/-! SUPPORT. One step of the machine, said once: whose step it was and what it did. -/

namespace Sys2Proof.Machine

/-- Everything one step can do, each case with the conditions under which it happens (R15, R20). -/
inductive State.StepEffect (s : State) : State → Prop
  /-- R15: the step is not enabled; the schedule alone moves on, and the counter of free choices may. -/
  | notTaken (choices : Nat) (rest : List Move) : s.StepEffect { s with choices := choices, moves := rest }
  /-- R111, R150: the core's step, taken while nothing is outstanding, has an instruction's effect. -/
  | core (grant choices : Nat) (rest : List Move) {t : State} (htp : s.tp = false)
      (he : State.Effect { s with grant := grant, choices := choices, moves := rest } t) : s.StepEffect t
  /-- R123: the transport's answer has an instruction's effect on the state that holds it. -/
  | answered (res : TransportResult) (rest : List Move) {t : State} (hm : s.moves = .transport res :: rest)
      (hc : s.canComplete = true) (he : State.Effect { s with answer := some res, moves := rest } t) : s.StepEffect t
  /-- R21: a free requester puts a well-formed request on its port. -/
  | offered (r : Nat) (p : ReqPort) (req : Request) (rest : List Move) (hm : s.moves = .offer r req :: rest)
      (hp : s.ports[r]? = some p) (ho : p.offer = none) (hw : p.waiting = false) (hreq : req.wf = true) :
      s.StepEffect { s.updatePort r (fun q => { q with offer := some req }) with moves := rest }
  /-- R161: the owner takes the response. -/
  | delivered (resp : Response) (rest : List Move) (hm : s.moves = .take s.owner :: rest) (hrst : s.rst = false)
      (hseq : s.seq = .resp) (hr : State.response { s with moves := rest } = some resp) :
      s.StepEffect { s.deliver resp with moves := rest }
  /-- R24: the power collaborator receives the oldest notification. -/
  | notified (rest : List Move) (hm : s.moves = .power :: rest) :
      s.StepEffect { s with power := s.power.tail, moves := rest }
  /-- R220: RESET is asserted. -/
  | resetAsserted (rest : List Move) (hm : s.moves = .resetAssert :: rest) :
      s.StepEffect { s.assertReset with moves := rest }
  /-- R222: RESET is deasserted. -/
  | resetDeasserted (rest : List Move) (hm : s.moves = .resetDeassert :: rest) :
      s.StepEffect { s.deassertReset with moves := rest }

theorem State.canAccept_iff {s : State} : s.canAccept = true ↔ s.rst = false ∧ s.tp = false ∧ s.seq = .idle := by
  simp [State.canAccept, and_assoc]

theorem State.canStart_iff {s : State} :
    s.canStart = true ↔ s.rst = false ∧ s.transferring = true ∧ s.tp = false := by
  simp [State.canStart, and_assoc]

theorem State.canComplete_iff {s : State} :
    s.canComplete = true ↔ s.rst = false ∧ s.transferring = true ∧ s.tp = true := by
  simp [State.canComplete, and_assoc]

/-- The core's step leaves the state as it is, or has an instruction's effect while nothing is outstanding. -/
theorem coreStep_effect {pick : Nat} {s t : State} (h : coreStep pick s = .next t) :
    t = s ∨ ∃ grant, s.tp = false ∧ State.Effect { s with grant := grant } t := by
  rcases coreStep_cases pick s with hc | ⟨req, hacc, _, hc⟩ | ⟨hst, hc⟩
  · cases hc.symm.trans h
    exact .inl rfl
  · obtain ⟨_, htp, _⟩ := State.canAccept_iff.mp hacc
    exact .inr ⟨pick, htp, exec_effect (hc.symm.trans h)⟩
  · obtain ⟨_, _, htp⟩ := State.canStart_iff.mp hst
    exact .inr ⟨s.grant, htp, exec_effect (hc.symm.trans h)⟩

/-- The transport's step leaves the state as it is, or its answer has an instruction's effect while the completion step
is enabled. -/
theorem transportStep_effect {res : TransportResult} {s t : State} (h : transportStep res s = .next t) :
    t = s ∨ s.canComplete = true ∧ State.Effect { s with answer := some res } t := by
  rcases transportStep_cases res s with ht | ⟨hc, _, ht⟩ | ⟨hc, _, ht⟩
  · cases ht.symm.trans h
    exact .inl rfl
  · exact .inr ⟨hc, exec_effect (ht.symm.trans h)⟩
  · exact .inr ⟨hc, exec_effect (ht.symm.trans h)⟩

theorem moveStep_effect {s t : State} {m : Move} {rest : List Move} (hm : s.moves = m :: rest)
    (h : moveStep m { s with moves := rest } = .next t) : s.StepEffect t := by
  cases m with
  | offer r req =>
    rcases offerStep_cases r req { s with moves := rest } with ho | ⟨p, hp, hno, hw, hreq, ho⟩ | ⟨_, ho⟩ <;>
      cases ho.symm.trans h
    · exact .notTaken s.choices rest
    · exact .offered r p req rest hm hp hno hw hreq
  | core pick =>
    rcases coreStep_effect h with rfl | ⟨grant, htp, he⟩
    · exact .notTaken s.choices rest
    · exact .core grant s.choices rest htp he
  | transport res =>
    rcases transportStep_effect h with rfl | ⟨hc, he⟩
    · exact .notTaken s.choices rest
    · exact .answered res rest hm hc he
  | take r =>
    rcases takeStep_cases r { s with moves := rest } with ht | ⟨resp, hrst, hseq, rfl, hr, ht⟩ | ⟨_, _, _, _, ht⟩ <;>
      cases ht.symm.trans h
    · exact .notTaken s.choices rest
    · exact .delivered resp rest hm hrst hseq hr
  | power => cases h; exact .notified rest hm
  | resetAssert => cases h; exact .resetAsserted rest hm
  | resetDeassert => cases h; exact .resetDeasserted rest hm

theorem ownStep_effect {s t : State} (h : ownStep s = .next t) : s.StepEffect t := by
  rcases ownStep_cases s with ho | ⟨pick, ho⟩ | ⟨pick, ho⟩
  · cases ho.symm.trans h
    exact .notTaken s.choices s.moves
  · rcases coreStep_effect (ho.symm.trans h) with rfl | ⟨grant, htp, he⟩
    · exact .notTaken t.choices t.moves
    · exact .core grant s.choices s.moves htp he
  · rcases coreStep_effect (ho.symm.trans h) with rfl | ⟨grant, htp, he⟩
    · exact .notTaken (s.choices + 1) s.moves
    · exact .core grant (s.choices + 1) s.moves htp he

/-- Every step of the machine is one of the cases of `State.StepEffect`. -/
theorem step_effect {s t : State} (h : step s = .next t) : s.StepEffect t := by
  unfold step at h
  split at h
  · exact moveStep_effect ‹_› h
  · exact ownStep_effect h

end Sys2Proof.Machine
end

section
/-! CMD, OWNER and TP under each effect (R28, R30, R31, R70). -/

namespace Sys2Proof.Machine

/-- R127: the storing of a read's data writes PAYLOAD and nothing else. -/
theorem storeData_eq_withPayload {s t : State} {dir : Dir} {hasBuf : Bool} {len : BitVec 12} {res : TransportResult}
    (h : s.storeData dir hasBuf len res = some t) : ∃ m, t = { s with payload := m } := by
  rcases s.storeData_cases dir hasBuf len res with ⟨_, hs⟩ | ⟨_, _, _, hs⟩ | ⟨_, _, _, hs⟩ <;> cases hs.symm.trans h
  · exact ⟨s.payload, rfl⟩
  · exact ⟨_, rfl⟩

@[simp] theorem handOutcome_cmd (s : State) (code : Code) : (s.handOutcome code).cmd = s.cmd := by
  rcases s.handOutcome_cases code with ⟨_, _, h⟩ | ⟨_, _, h⟩ | ⟨_, h⟩ | ⟨_, h⟩ <;> simp [h]

@[simp] theorem handOutcome_owner (s : State) (code : Code) : (s.handOutcome code).owner = s.owner := by
  rcases s.handOutcome_cases code with ⟨_, _, h⟩ | ⟨_, _, h⟩ | ⟨_, h⟩ | ⟨_, h⟩ <;> simp [h]

@[simp] theorem handOutcome_tp (s : State) (code : Code) : (s.handOutcome code).tp = s.tp := by
  rcases s.handOutcome_cases code with ⟨_, _, h⟩ | ⟨_, _, h⟩ | ⟨_, h⟩ | ⟨_, h⟩ <;> simp [h]

/-- R163: the result of a reserved command, 0x102. -/
theorem setOutcome_zero_invalidOp : setOutcome 0x00000000#32 .invalidOp 0#4 = 0x00000102#32 := by decide

/-- R30, R31: an effect keeps CMD and OWNER, or it is an acceptance: it leaves IDLE, with RESULT cleared or, for a
reserved command, posted. -/
theorem State.Effect.keeps_cmd_owner_or_accepts {s t : State} (h : s.Effect t) :
    (t.cmd = s.cmd ∧ t.owner = s.owner) ∨
    (s.rst = false ∧ s.seq = .idle ∧ t.seq ≠ .idle ∧ t.result ∈ [0x000#32, 0x102#32]) := by
  cases h with
  | unchanged => exact .inl ⟨rfl, rfl⟩
  | accepted cmdw entry req hc ho hw he =>
    obtain ⟨hrst, _, hseq⟩ := State.canAccept_iff.mp hc
    refine .inr ⟨hrst, hseq, ?_⟩
    rcases he with ⟨_, rfl⟩ | ⟨_, rfl⟩ | ⟨_, _, rfl⟩
    · simp
    · simp
    · simp [setOutcome_zero_invalidOp]
  | rejected code hs => simp
  | encoded hdr hs => simp
  | issued dir hasBuf addr len bytes hs hk hb => simp
  | completed dir hasBuf len res u hc hw hu =>
    obtain ⟨m, rfl⟩ := storeData_eq_withPayload hu
    simp

/-- R28, R122: an effect that raises TP is a start step: a transaction is put on the port, SEQ and OWNER stay. -/
theorem State.Effect.issue_of_tp_rises {s t : State} (h : s.Effect t) (hs : s.tp = false) (ht : t.tp = true) :
    s.transferring = true ∧ t.seq = s.seq ∧ t.txn.isSome = true ∧ t.owner = s.owner := by
  cases h with
  | unchanged => simp [hs] at ht
  | accepted cmdw entry req hc ho hw he => rcases he with ⟨_, rfl⟩ | ⟨_, rfl⟩ | ⟨_, _, rfl⟩ <;> simp [hs] at ht
  | rejected code hst => simp [hs] at ht
  | encoded hdr hst => simp [hs] at ht
  | issued dir hasBuf addr len bytes hst hk hb =>
    obtain ⟨_, htr, _⟩ := State.canStart_iff.mp hst
    exact ⟨htr, rfl, rfl, rfl⟩
  | completed dir hasBuf len res u hc hw hu =>
    obtain ⟨m, rfl⟩ := storeData_eq_withPayload hu
    simp at ht

/-- R70, R122: an effect on a state with a transaction outstanding leaves it as it is, or ends the transaction. -/
theorem State.Effect.unchanged_or_tp_falls {s t : State} (h : s.Effect t) (hs : s.tp = true) : t = s ∨ t.tp = false := by
  cases h with
  | unchanged => exact .inl rfl
  | accepted cmdw entry req hc ho hw he =>
    obtain ⟨_, htp, _⟩ := State.canAccept_iff.mp hc
    simp [htp] at hs
  | rejected code hst | encoded hdr hst | issued dir hasBuf addr len bytes hst hk hb =>
    obtain ⟨_, _, htp⟩ := State.canStart_iff.mp hst
    simp [htp] at hs
  | completed dir hasBuf len res u hc hw hu =>
    obtain ⟨m, rfl⟩ := storeData_eq_withPayload hu
    exact .inr (by simp)

/-- Settles O41: an instruction's effect keeps both registers or is an acceptance, and of the other steps only the one
that asserts RESET writes them. -/
theorem onlyAcceptanceWritesCmdAndOwner : Obligations.OnlyAcceptanceWritesCmdAndOwner := by
  intro s t h hne
  cases step_effect h with
  | core grant choices rest htp he | answered res rest hm hc he =>
    rcases he.keeps_cmd_owner_or_accepts with ⟨hcmd, howner⟩ | hacc
    · simp [hcmd, howner] at hne
    · exact .inl hacc
  | resetAsserted rest hm => exact .inr ⟨rest, hm⟩
  | notTaken | offered | delivered | notified | resetDeasserted => simp at hne

/-- R28: TP rises only by the core's start step. -/
theorem State.StepEffect.issue_of_tp_rises {s t : State} (h : s.StepEffect t) (hs : s.tp = false) (ht : t.tp = true) :
    s.transferring = true ∧ t.seq = s.seq ∧ t.txn.isSome = true ∧ t.owner = s.owner := by
  cases h with
  | core grant choices rest htp he => exact he.issue_of_tp_rises hs ht
  | answered res rest hm hc he => exact he.issue_of_tp_rises hs ht
  | resetAsserted rest hm => simp at ht
  | notTaken | offered | delivered | notified | resetDeasserted => simp [hs] at ht

/-- R28, R70: while TP stays 1 the transaction, SEQ and HDR_TX stay, given that nothing is outstanding in RESP. -/
theorem State.StepEffect.keeps_txn_of_tp_stays {s t : State} (h : s.StepEffect t) (hs : s.tp = true) (ht : t.tp = true)
    (hresp : s.seq ≠ .resp) : t.txn = s.txn ∧ t.seq = s.seq ∧ t.hdrTx = s.hdrTx := by
  cases h with
  | core grant choices rest htp he => simp [htp] at hs
  | answered res rest hm hc he =>
    rcases he.unchanged_or_tp_falls hs with rfl | htp
    · exact ⟨rfl, rfl, rfl⟩
    · simp [htp] at ht
  | delivered resp rest hm hrst hseq hr => exact absurd hseq hresp
  | resetAsserted rest hm => simp at ht
  | notTaken | offered | notified | resetDeasserted => exact ⟨rfl, rfl, rfl⟩

/-- R28, R123: TP falls only by the transport's answer or by reset. -/
theorem State.StepEffect.answer_or_reset_of_tp_falls {s t : State} (h : s.StepEffect t) (hs : s.tp = true)
    (ht : t.tp = false) : (∃ res rest, s.moves = .transport res :: rest) ∨ (∃ rest, s.moves = .resetAssert :: rest) := by
  cases h with
  | core grant choices rest htp he => simp [htp] at hs
  | answered res rest hm hc he => exact .inl ⟨res, rest, hm⟩
  | resetAsserted rest hm => exact .inr ⟨rest, hm⟩
  | notTaken | offered | delivered | notified | resetDeasserted => simp [hs] at ht

/-- R28, R70: no transaction is outstanding in RESP. -/
theorem State.Inv.seq_ne_resp_of_tp {s : State} (hi : s.Inv) (hs : s.tp = true) : s.seq ≠ .resp := by
  obtain ⟨htr, _⟩ := hi.outstanding hs
  intro hseq
  simp [State.transferring, hseq] at htr

/-- Settles O42: TP rises by a start step alone, and while it is 1 the only steps that change what is outstanding are
the transport's answer and reset; the invariant shuts out a delivery. -/
theorem oneTransactionOutstanding : Obligations.OneTransactionOutstanding := by
  intro s t hi h
  have he := step_effect h
  exact ⟨he.issue_of_tp_rises, fun hs ht => he.keeps_txn_of_tp_stays hs ht (hi.seq_ne_resp_of_tp hs),
    he.answer_or_reset_of_tp_falls⟩

/-- Settles O55: NUM_REQ is at most 2 to the power ceil(log2 NUM_REQ). -/
theorem ownerFitsItsWidth : Obligations.OwnerFitsItsWidth := by
  intro s hi
  calc s.owner < s.params.numReq := hi.owner_lt
    _ ≤ 2 ^ Nat.clog 2 s.params.numReq := Nat.le_pow_clog Nat.one_lt_two _
    _ ≤ 2 ^ ownerWidth s.params := Nat.pow_le_pow_right Nat.two_pos (Nat.le_max_right _ _)

end Sys2Proof.Machine
end

section
/-! The steps that meet their conditions, as equations: the refused acceptance, the step's dispatch, the request port and
the delivery (R20 to R22, R81, R83, R125, R161). -/

namespace Sys2Proof.Machine

/-- R21: which requests of a built command word are well formed. -/
theorem Request.wf_cmdWord_iff {op : BitVec 2} {rsv0 : BitVec 6} {addr : BitVec 9} {rsv1 : BitVec 3} {len : BitVec 12}
    {wdata : List Byte} :
    Request.wf { cmdw := cmdWord op rsv0 addr rsv1 len, wdata := wdata } = true ↔
      if op = 0#2 then wdata.length = len.toNat else wdata = [] := by
  by_cases hop : op = 0#2 <;> simp [Request.wf, hop]

/-- R21, R225: an enabled acceptance refuses a malformed request. -/
theorem State.accept_malformed {s : State} {cmdw : Word} {entry : State → State} {req : Request}
    (hc : s.canAccept = true) (ho : s.offerOf s.grant = some req)
    (hw : ¬ Request.wf { cmdw := cmdw, wdata := req.wdata } = true) :
    s.accept cmdw entry = .refused .malformedRequest := by
  simp [State.accept, hc, ho, hw]

/-- Settles O13: the acceptance is enabled, and the request is malformed for the operation code of each command. -/
theorem malformedRequestsRefused : Obligations.MalformedRequestsRefused := by
  intro op0 rsv0 addr rsv1 len s req hrst htp hseq ho
  have hc : s.canAccept = true := State.canAccept_iff.mpr ⟨hrst, htp, hseq⟩
  obtain ⟨hop, _⟩ := reservedOp_ne op0
  refine ⟨fun hlen => ?write, fun hdata => ⟨?read, ?reserved⟩⟩
  case write => exact State.accept_malformed hc ho (by simpa [Request.wf_cmdWord_iff] using hlen)
  case read => exact State.accept_malformed hc ho (by simpa [Request.wf_cmdWord_iff] using hdata)
  case reserved => exact State.accept_malformed hc ho (by simpa [Request.wf_cmdWord_iff, hop] using hdata)

theorem step_of_moves {s : State} {m : Move} {rest : List Move} (h : s.moves = m :: rest) :
    step s = moveStep m { s with moves := rest } := by
  simp only [step, h]

/-- R150: the core's step in IDLE runs the command of the chosen requester. -/
theorem coreStep_idle {s : State} {pick : Nat} {req : Request} (hrst : s.rst = false) (htp : s.tp = false)
    (hseq : s.seq = .idle) (ho : s.offerOf pick = some req) :
    coreStep pick s = exec (decodeCmd req.cmdw) { s with grant := pick } := by
  simp [coreStep, hrst, htp, hseq, ho]

/-- R111: the core's step in SETADDR and DATA runs the engine request. -/
theorem coreStep_transferring {s : State} {pick : Nat} (hrst : s.rst = false) (htp : s.tp = false)
    (hseq : s.seq = .setaddr ∨ s.seq = .data) : coreStep pick s = exec (decodeEng s.engreq) s := by
  rcases hseq with hseq | hseq <;> simp [coreStep, hrst, htp, hseq]

/-- R123, R125: the transport's answer to the outstanding transaction runs SYNC_ACK or the engine request. -/
theorem transportStep_outstanding {s : State} (res : TransportResult) (hc : s.canComplete = true) :
    transportStep res s = if rxByte res 0 0 = s.params.syncByte then exec .syncAck { s with answer := some res }
      else exec (decodeEng s.engreq) { s with answer := some res } := by
  by_cases hb : rxByte res 0 0 = s.params.syncByte <;> simp [transportStep, hc, decodeRx, hb]

/-- Settles O38: the step is the move at the head of the schedule, and each move's equation gives the decoded
instruction. -/
theorem stepRunsDecodedInstruction : Obligations.StepRunsDecodedInstruction := by
  refine ⟨?command, ?engine, ?transport⟩
  case command =>
    intro s pick rest req i hm hrst htp hseq ho hd
    cases hd
    exact (step_of_moves hm).trans (coreStep_idle hrst htp hseq ho)
  case engine =>
    intro s pick rest i hm hrst htp hseq hd
    cases hd
    exact (step_of_moves hm).trans (coreStep_transferring hrst htp hseq)
  case transport =>
    intro s res rest j hm hrst htp hseq hd
    cases hd
    have htr : s.transferring = true := by simpa [State.transferring] using hseq
    exact (step_of_moves hm).trans (transportStep_outstanding res (State.canComplete_iff.mpr ⟨hrst, htr, htp⟩))

/-- R161: the delivery step of the owner in RESP. -/
theorem takeStep_owner {s : State} {resp : Response} (hrst : s.rst = false) (hseq : s.seq = .resp)
    (hr : s.response = some resp) : takeStep s.owner s = .next (s.deliver resp) := by
  simp [takeStep, hrst, hseq, hr]

/-- R161, R221: no delivery under RESET, outside RESP, or to another requester. -/
theorem takeStep_not_enabled {s : State} {r : Nat} (h : s.rst = true ∨ s.seq ≠ .resp ∨ r ≠ s.owner) :
    takeStep r s = .next s := by
  rcases takeStep_cases r s with ht | ⟨_, hrst, hseq, howner, _⟩ | ⟨hrst, hseq, howner, _⟩
  · exact ht
  · simp [hrst, hseq, howner] at h
  · simp [hrst, hseq, howner] at h

/-- R22: the response to a BLK_READ that ended OK carries the received data. -/
theorem response_of_read_ok {s : State} (hop : cmdOp s.cmd = 1#2) (hcode : resCode s.result = 0#4)
    (hlen : (cmdLen s.cmd).toNat ≤ payloadBytes s.params) :
    s.response = some { resultw := s.result, rdata := s.readFrom 0 (cmdLen s.cmd).toNat } := by
  simp [State.response, State.rdata, State.memRead, codeBits, hop, hcode, hlen]

/-- R22: every other response carries no data. -/
theorem response_of_not_read_ok {s : State} (h : ¬(cmdOp s.cmd = 1#2 ∧ resCode s.result = 0#4)) :
    s.response = some { resultw := s.result, rdata := [] } := by
  have hd : s.rdata = some [] := if_neg h
  simp [State.response, hd]

/-- Settles O44: the owner's delivery hands over the response that RESULT and PAYLOAD make, and no other is enabled. -/
theorem deliveryGivesOwnerItsResponse : Obligations.DeliveryGivesOwnerItsResponse := by
  intro r s
  refine ⟨?owner, takeStep_not_enabled⟩
  case owner =>
    rintro hrst hseq rfl
    exact ⟨fun hop hcode hlen => takeStep_owner hrst hseq (response_of_read_ok hop hcode hlen),
      fun h => takeStep_owner hrst hseq (response_of_not_read_ok h)⟩

theorem State.updatePort_ports_same {s : State} {r : Nat} {p : ReqPort} (f : ReqPort → ReqPort)
    (hp : s.ports[r]? = some p) : (s.updatePort r f).ports[r]? = some (f p) := by
  simp [hp]

theorem State.updatePort_ports_other {s : State} {r q : Nat} (f : ReqPort → ReqPort) (h : q ≠ r) :
    (s.updatePort r f).ports[q]? = s.ports[q]? := by
  simp [h.symm]

theorem State.offerOf_of_port {s : State} {r : Nat} {p : ReqPort} (hp : s.ports[r]? = some p) :
    s.offerOf r = p.offer := by
  simp [State.offerOf, hp]

/-- R21: a requester that offers or waits makes no further offer. -/
theorem offerStep_busy {s : State} {r : Nat} {p : ReqPort} (req : Request) (hp : s.ports[r]? = some p)
    (h : p.offer ≠ none ∨ p.waiting = true) : offerStep r req s = .next s := by
  have hbusy : (p.offer.isSome || p.waiting) = true := by simpa [Option.isSome_iff_ne_none] using h
  simp only [offerStep, hp, hbusy, if_true]

/-- R21: a free requester's well-formed request is put on its port, and a malformed one is refused. -/
theorem offerStep_free {s : State} {r : Nat} {p : ReqPort} (req : Request) (hp : s.ports[r]? = some p)
    (ho : p.offer = none) (hw : p.waiting = false) :
    offerStep r req s = if req.wf then .next (s.updatePort r fun q => { q with offer := some req })
      else .refused .malformedRequest := by
  simp [offerStep, hp, ho, hw]

/-- Settles O45: the offer's two equations, and what the update of one port leaves on every port. -/
theorem requestPortProtocol : Obligations.RequestPortProtocol := by
  intro r p req s hp
  refine ⟨offerStep_busy req hp, fun ho hw hreq => ?accepted, fun ho hw hreq => ?malformed⟩
  case accepted =>
    exact ⟨_, (offerStep_free req hp ho hw).trans (if_pos hreq),
      State.offerOf_of_port (State.updatePort_ports_same _ hp), fun q hq => State.updatePort_ports_other _ hq⟩
  case malformed => exact (offerStep_free req hp ho hw).trans (if_neg (by simp [hreq]))

/-- Settles O46: the fields of the reset state, and its PAYLOAD without a cell. -/
theorem resetValues : Obligations.ResetValues :=
  ⟨rfl, rfl, rfl, rfl, rfl, rfl, rfl, rfl, fun _ => rfl⟩

end Sys2Proof.Machine
end

section
/-! SUPPORT. PAYLOAD under the shared operations: which of them write it, and what it then reads as (R61, R74, R75,
R127, R151). -/

namespace Sys2Proof.Machine

/-- What a byte of PAYLOAD reads as depends on the cells and the number of the reset alone. -/
theorem State.readByte_congr {s t : State} (hp : t.payload = s.payload) (he : t.payloadEpoch = s.payloadEpoch)
    (a : Nat) : t.readByte a = s.readByte a := by
  unfold State.readByte
  rw [hp, he]

/-- R74: inside a write at index 0, PAYLOAD reads as the bytes written. -/
theorem State.readByte_of_put_inside {t : State} {m : Memory} {bs : List Byte} (hp : t.payload = memPut m 0 bs)
    {a : Nat} (ha : a < bs.length) : some (t.readByte a) = bs[a]? := by
  have hget : memGet t.payload a = some bs[a] := by
    simpa [hp, ha] using memGet_memPut_inside m 0 a bs ha
  simp [State.readByte, hget, ha]

/-- R75: beyond a write at index 0, PAYLOAD reads as before. -/
theorem State.readByte_of_put_outside {s t : State} {bs : List Byte} (hp : t.payload = memPut s.payload 0 bs)
    (he : t.payloadEpoch = s.payloadEpoch) {a : Nat} (ha : bs.length ≤ a) : t.readByte a = s.readByte a := by
  have hget : memGet t.payload a = memGet s.payload a := by
    rw [hp]
    exact memGet_memPut_outside s.payload 0 a bs (.inr (by omega))
  simp only [State.readByte, hget, he]

@[simp] theorem handOutcome_payload (s : State) (code : Code) : (s.handOutcome code).payload = s.payload := by
  rcases s.handOutcome_cases code with ⟨_, _, h⟩ | ⟨_, _, h⟩ | ⟨_, h⟩ | ⟨_, h⟩ <;> simp [h]

@[simp] theorem handOutcome_payloadEpoch (s : State) (code : Code) :
    (s.handOutcome code).payloadEpoch = s.payloadEpoch := by
  rcases s.handOutcome_cases code with ⟨_, _, h⟩ | ⟨_, _, h⟩ | ⟨_, h⟩ | ⟨_, h⟩ <;> simp [h]

@[simp] theorem handOutcome_rst (s : State) (code : Code) : (s.handOutcome code).rst = s.rst := by
  rcases s.handOutcome_cases code with ⟨_, _, h⟩ | ⟨_, _, h⟩ | ⟨_, h⟩ | ⟨_, h⟩ <;> simp [h]

@[simp] theorem handOutcome_moves (s : State) (code : Code) : (s.handOutcome code).moves = s.moves := by
  rcases s.handOutcome_cases code with ⟨_, _, h⟩ | ⟨_, _, h⟩ | ⟨_, h⟩ | ⟨_, h⟩ <;> simp [h]

/-- R151: only a BLK_WRITE that fits the frame latches its data. -/
theorem latches_iff {p : Params} {cmdw : Word} :
    latches p cmdw = true ↔ cmdOp cmdw = 0#2 ∧ (cmdLen cmdw).toNat + 2 ≤ p.maxFrame := by
  have h : latches p cmdw = true ↔ cmdOp cmdw = 0#2 ∧ (cmdLen cmdw).toNat + hdrSize .write ≤ p.maxFrame := by
    simp [latches]
  exact h

theorem State.latch_payload_of_latches {s : State} {cmdw : Word} (wdata : List Byte)
    (h : latches s.params cmdw = true) : (s.latch cmdw wdata).payload = memPut s.payload 0 wdata := if_pos h

theorem State.latch_payload_of_not_latches {s : State} {cmdw : Word} (wdata : List Byte)
    (h : ¬ latches s.params cmdw = true) : (s.latch cmdw wdata).payload = s.payload := if_neg h

theorem State.latch_payload_of_op_ne {s : State} {cmdw : Word} (wdata : List Byte) (h : cmdOp cmdw ≠ 0#2) :
    (s.latch cmdw wdata).payload = s.payload :=
  State.latch_payload_of_not_latches wdata fun hl => h (latches_iff.mp hl).1

/-- R127: a transfer without received data stores nothing. -/
theorem storeData_of_no_data {s : State} {dir : Dir} {hasBuf : Bool} {len : BitVec 12} (res : TransportResult)
    (hn : ¬(dir = .read ∧ dataPhase hasBuf len = true)) : s.storeData dir hasBuf len res = some s := if_neg hn

/-- R127: what PAYLOAD holds once a completion has stored its data, if it has any. -/
theorem storeData_payload {s t : State} {dir : Dir} {hasBuf : Bool} {len : BitVec 12} {res : TransportResult}
    (h : s.storeData dir hasBuf len res = some t) :
    t.payload = s.payload ∨ t.payload = memPut s.payload 0 (res.rx.getD 1 []) := by
  rcases s.storeData_cases dir hasBuf len res with ⟨_, hs⟩ | ⟨_, _, _, hs⟩ | ⟨_, _, _, hs⟩ <;> cases hs.symm.trans h
  · exact .inl rfl
  · exact .inr rfl

/-- No instruction changes the RESET input, the schedule or the number of the reset. -/
theorem State.Effect.keeps_rst_moves_epoch {s t : State} (h : s.Effect t) :
    t.rst = s.rst ∧ t.moves = s.moves ∧ t.payloadEpoch = s.payloadEpoch := by
  cases h with
  | unchanged => exact ⟨rfl, rfl, rfl⟩
  | accepted cmdw entry req hc ho hw he => rcases he with ⟨_, rfl⟩ | ⟨_, rfl⟩ | ⟨_, _, rfl⟩ <;> simp
  | rejected code hs => simp
  | encoded hdr hs => simp
  | issued dir hasBuf addr len bytes hs hk hb => simp
  | completed dir hasBuf len res u hc hw hu =>
    obtain ⟨m, rfl⟩ := storeData_eq_withPayload hu
    simp

/-- R61, R75: an instruction's effect keeps PAYLOAD, or it is the acceptance of a BLK_WRITE or a completion and writes
bytes at index 0. -/
theorem State.Effect.payload_cases {s t : State} (h : s.Effect t) :
    t.payload = s.payload ∨
    (∃ bytes, s.canAccept = true ∧ cmdOp t.cmd = 0#2 ∧ t.seq = .data ∧ t.payload = memPut s.payload 0 bytes) ∨
    (∃ bytes, s.canComplete = true ∧ t.payload = memPut s.payload 0 bytes) := by
  cases h with
  | unchanged => exact .inl rfl
  | accepted cmdw entry req hc ho hw he =>
    rcases he with ⟨hop, rfl⟩ | ⟨hop, rfl⟩ | ⟨hop, _, rfl⟩
    · by_cases hl : latches s.params cmdw = true
      · exact .inr (.inl ⟨req.wdata, hc, hop, rfl, State.latch_payload_of_latches _ hl⟩)
      · exact .inl (State.latch_payload_of_not_latches _ hl)
    · exact .inl (State.latch_payload_of_op_ne _ (by simp [hop]))
    · exact .inl (State.latch_payload_of_op_ne _ hop)
  | rejected code hs => exact .inl (by simp)
  | encoded hdr hs => exact .inl rfl
  | issued dir hasBuf addr len bytes hs hk hb => exact .inl rfl
  | completed dir hasBuf len res u hc hw hu =>
    rcases storeData_payload hu with hp | hp
    · exact .inl ((handOutcome_payload u _).trans hp)
    · exact .inr (.inr ⟨_, hc, (handOutcome_payload u _).trans hp⟩)

/-- An instruction's effect keeps the canonical form. -/
theorem State.Effect.payload_wf {s t : State} (h : s.Effect t) (hw : Memory.wf s.payload) : Memory.wf t.payload := by
  rcases h.payload_cases with hp | ⟨bytes, _, _, _, hp⟩ | ⟨bytes, _, hp⟩ <;> rw [hp]
  · exact hw
  · exact memPut_wf hw 0 bytes
  · exact memPut_wf hw 0 bytes

/-- Settles O36: an instruction writes PAYLOAD by `memPut` alone, reset empties it, and no other step writes it. -/
theorem payloadStaysCanonical : Obligations.PayloadStaysCanonical := by
  intro s t hw h
  cases step_effect h with
  | core grant choices rest htp he => exact he.payload_wf hw
  | answered res rest hm hc he => exact he.payload_wf hw
  | resetAsserted rest hm => exact List.Pairwise.nil
  | notTaken | offered | delivered | notified | resetDeasserted => exact hw

end Sys2Proof.Machine
end

section
/-! The instructions that keep PAYLOAD, and the acceptance of a BLK_WRITE, which does not (R61, R74, R75, R151). -/

namespace Sys2Proof.Machine

/-- R127, R151: the instructions and forms that may store bytes in PAYLOAD: BLK_WRITE, and the completion of a read with
a data phase. -/
def State.mayStore (s : State) : Instr → Prop
  | .blkWrite _ _ _ _ => True
  | .xferRead hasBuf _ _ _ len => s.tp = true ∧ dataPhase hasBuf len = true
  | .syncAck => engOp s.engreq = 1#2 ∧ dataPhase (engHasBuf s.engreq) (engLen s.engreq) = true
  | _ => False

/-- R83: the operation code of a read. -/
theorem opDir_eq_read {op : BitVec 2} (h : opDir op = some .read) : op = 1#2 := by
  revert op
  decide

theorem accept_keeps_payload {s t : State} {cmdw : Word} {entry : State → State} (hop : cmdOp cmdw ≠ 0#2)
    (hentry : ∀ u, (entry u).payload = u.payload) (h : s.accept cmdw entry = .next t) : t.payload = s.payload := by
  rcases s.accept_cases cmdw entry with ha | ha | ⟨req, _, _, _, ha⟩ <;> cases ha.symm.trans h
  · rfl
  · exact (hentry _).trans (State.latch_payload_of_op_ne req.wdata hop)

theorem startTransfer_keeps_payload {s t : State} {dir : Dir} {hasBuf : Bool} {addr : BitVec 9} {len : BitVec 12}
    (h : s.startTransfer dir hasBuf addr len = .next t) : t.payload = s.payload := by
  rcases s.startTransfer_cases dir hasBuf addr len with ⟨code, _, ha⟩ | ⟨_, _, ha⟩ | ⟨bytes, _, _, ha⟩ <;>
    cases ha.symm.trans h
  · exact handOutcome_payload s code
  · rfl

theorem completeTransfer_keeps_payload {s t : State} {dir : Dir} {hasBuf : Bool} {len : BitVec 12}
    {res : TransportResult} (hn : ¬(dir = .read ∧ dataPhase hasBuf len = true))
    (h : s.completeTransfer dir hasBuf len res = .next t) : t.payload = s.payload := by
  rcases s.completeTransfer_cases dir hasBuf len res with ⟨_, ha⟩ | ⟨_, _, ha⟩ | ⟨u, _, hu, ha⟩ <;> cases ha.symm.trans h
  cases (storeData_of_no_data res hn).symm.trans hu
  exact handOutcome_payload _ _

/-- R75, R127: an engine transfer keeps PAYLOAD, but for the completion of a read with a data phase. -/
theorem transfer_keeps_payload {s t : State} {dir : Dir} {hasBuf : Bool} {addr : BitVec 9} {len : BitVec 12}
    (hn : ¬(s.tp = true ∧ dir = .read ∧ dataPhase hasBuf len = true))
    (h : s.transfer dir hasBuf addr len = .next t) : t.payload = s.payload := by
  rcases s.transfer_cases dir hasBuf addr len with ⟨_, ha⟩ | ⟨res, _, hc, _, ha⟩ | ⟨_, _, ha⟩
  · exact startTransfer_keeps_payload (ha.symm.trans h)
  · obtain ⟨_, _, htp⟩ := State.canComplete_iff.mp hc
    exact completeTransfer_keeps_payload (fun hd => hn ⟨htp, hd⟩) (ha.symm.trans h)
  · cases ha.symm.trans h
    rfl

theorem rejectTransfer_keeps_payload {s t : State} {code : Code} (h : s.rejectTransfer code = .next t) :
    t.payload = s.payload := by
  unfold State.rejectTransfer at h
  split at h <;> cases h
  · exact handOutcome_payload s code
  · rfl

theorem encodeHeader_keeps_payload {s t : State} {hdr : HdrReg} (h : s.encodeHeader hdr = .next t) :
    t.payload = s.payload := by
  unfold State.encodeHeader at h
  split at h <;> cases h
  · rfl
  · rfl

theorem execSyncAck_keeps_payload {s t : State} (hn : ¬ s.mayStore .syncAck) (h : execSyncAck s = .next t) :
    t.payload = s.payload := by
  unfold execSyncAck at h
  split at h
  · split at h
    · rename_i res dir _ hdir
      refine completeTransfer_keeps_payload (fun hd => hn ?_) h
      obtain ⟨rfl, hp⟩ := hd
      exact ⟨opDir_eq_read hdir, hp⟩
    · cases h
      rfl
  · cases h
    rfl

/-- R75: an instruction that may store nothing keeps PAYLOAD. -/
theorem exec_keeps_payload {i : Instr} {s t : State} (hn : ¬ s.mayStore i) (h : exec i s = .next t) :
    t.payload = s.payload := by
  cases i with
  | blkWrite rsv0 addr rsv1 len => exact absurd trivial hn
  | blkRead rsv0 addr rsv1 len => exact accept_keeps_payload (by simp) State.enterRead_payload h
  | cmdReserved op0 rsv0 addr rsv1 len =>
    obtain ⟨hop, _⟩ := reservedOp_ne op0
    exact accept_keeps_payload (by simpa using hop) State.enterReserved_payload h
  | xferWrite hasBuf rsv addr rsvHi len => exact transfer_keeps_payload (by simp) h
  | xferRead hasBuf rsv addr rsvHi len =>
    exact transfer_keeps_payload (fun ⟨htp, _, hp⟩ => hn ⟨htp, hp⟩) h
  | xferInvalid op0 hasBuf rsv addr rsvHi len => exact rejectTransfer_keeps_payload h
  | hdrWrite addrLo => exact encodeHeader_keeps_payload h
  | hdrWriteExt addrLo => exact encodeHeader_keeps_payload h
  | hdrRead => exact encodeHeader_keeps_payload h
  | syncAck => exact execSyncAck_keeps_payload hn h

/-- Settles O35: no effect changes the parameters, the RESET input or the schedule, and each form that the statement
names may store nothing. -/
theorem otherInstructionsKeepPayload : Obligations.OtherInstructionsKeepPayload := by
  intro i s t h
  obtain ⟨hrst, hmoves, hepoch⟩ := (exec_effect h).keeps_rst_moves_epoch
  have hkeeps : ¬ s.mayStore i → ∀ a, t.readByte a = s.readByte a := fun hn =>
    State.readByte_congr (exec_keeps_payload hn h) hepoch
  refine ⟨(exec_effect h).params_eq, hrst, hmoves, ?payload⟩
  case payload =>
    cases i with
    | blkWrite rsv0 addr rsv1 len => trivial
    | xferRead hasBuf rsv addr rsvHi len =>
      intro hform
      exact hkeeps fun ⟨htp, hp⟩ => by simp [htp, hp] at hform
    | syncAck =>
      intro hform
      exact hkeeps fun ⟨hop, hp⟩ => by simp [hop, hp] at hform
    | blkRead | cmdReserved | xferWrite | xferInvalid | hdrWrite | hdrWriteExt | hdrRead => exact hkeeps id

/-- R83: an engine request that is no read may store nothing. -/
theorem not_mayStore_decodeEng {s : State} {w : Word} (hop : engOp w ≠ 1#2) : ¬ s.mayStore (decodeEng w) := by
  unfold decodeEng
  rw [if_neg hop]
  split
  · exact id
  · exact id

/-- R127: the transport's answer keeps PAYLOAD where the engine request is no read. -/
theorem transportStep_keeps_payload {res : TransportResult} {s t : State} (hop : engOp s.engreq ≠ 1#2)
    (h : transportStep res s = .next t) : t.payload = s.payload := by
  rcases transportStep_cases res s with ht | ⟨_, _, ht⟩ | ⟨_, _, ht⟩
  · cases ht.symm.trans h
    rfl
  · have hn : ¬ State.mayStore { s with answer := some res } .syncAck := fun ⟨hread, _⟩ => hop hread
    exact (exec_keeps_payload hn (ht.symm.trans h) :)
  · exact (exec_keeps_payload (not_mayStore_decodeEng hop) (ht.symm.trans h) :)

/-- Settles O37: the core's own step writes PAYLOAD only where it accepts a BLK_WRITE, since no completion is enabled
while TP = 0; the transport's answer writes it only for a read; of the other steps only reset does. -/
theorem onlyNamedStepsWritePayload : Obligations.OnlyNamedStepsWritePayload := by
  intro s t h hne
  cases step_effect h with
  | core grant choices rest htp he =>
    rcases he.payload_cases with hp | ⟨_, hacc, hop, hseq, _⟩ | ⟨_, hc, _⟩
    · exact absurd hp hne
    · obtain ⟨_, _, hidle⟩ := State.canAccept_iff.mp hacc
      exact .inl ⟨hidle, hop, hseq⟩
    · obtain ⟨_, _, htp'⟩ := State.canComplete_iff.mp hc
      cases htp.symm.trans htp'
  | answered res rest hm hc he =>
    obtain ⟨_, _, htp⟩ := State.canComplete_iff.mp hc
    refine .inr (.inl ⟨res, rest, hm, htp, ?_⟩)
    by_contra hop
    exact hne (transportStep_keeps_payload (s := { s with moves := rest }) hop ((step_of_moves hm).symm.trans h))
  | resetAsserted rest hm => exact .inr (.inr ⟨rest, hm⟩)
  | notTaken | offered | delivered | notified | resetDeasserted => exact absurd rfl hne

/-- R150, R151, R154: the acceptance of a well-formed BLK_WRITE. -/
theorem exec_blkWrite_accepted {s : State} {req : Request} (rsv0 : BitVec 6) (addr : BitVec 9) (rsv1 : BitVec 3)
    {len : BitVec 12} (hc : s.canAccept = true) (ho : s.offerOf s.grant = some req)
    (hlen : req.wdata.length = len.toNat) :
    exec (.blkWrite rsv0 addr rsv1 len) s = .next (s.latch (cmdWord 0#2 rsv0 addr rsv1 len) req.wdata).enterWrite :=
  State.accept_next hc ho (by simpa [Request.wf_cmdWord_iff] using hlen)

/-- Settles O33: the next state's PAYLOAD is the old one with WDATA put at index 0 where the write fits, and the old one
where it does not. -/
theorem blkWritePayloadFrame : Obligations.BlkWritePayloadFrame := by
  intro rsv0 addr rsv1 len s t req hrst htp hseq ho hlen h
  have hc : s.canAccept = true := State.canAccept_iff.mpr ⟨hrst, htp, hseq⟩
  have hfits : latches s.params (cmdWord 0#2 rsv0 addr rsv1 len) = true ↔ len.toNat + 2 ≤ s.params.maxFrame := by
    simp [latches_iff]
  cases (exec_blkWrite_accepted rsv0 addr rsv1 hc ho hlen).symm.trans h
  refine ⟨fun hfit => ?fits, fun hbig => ?oversize⟩
  case fits =>
    have hp := State.latch_payload_of_latches req.wdata (hfits.mpr hfit)
    exact ⟨fun a ha => State.readByte_of_put_inside hp (hlen ▸ ha),
      fun a ha => State.readByte_of_put_outside hp rfl (hlen ▸ ha)⟩
  case oversize =>
    have hp := State.latch_payload_of_not_latches req.wdata fun hl => hbig.not_ge (hfits.mp hl)
    exact State.readByte_congr hp rfl

end Sys2Proof.Machine
end

section
/-! The fault never occurs: every access to PAYLOAD of a state of the invariant lies within the buffer (R61). -/

namespace Sys2Proof.Machine

/-- R61, R113: an outstanding transfer fits the frame, so that the data it receives fits the buffer. -/
def State.RequestFits (s : State) : Prop :=
  s.tp = true → ∀ dir, opDir (engOp s.engreq) = some dir → (engLen s.engreq).toNat + hdrSize dir ≤ s.params.maxFrame

/-- R22, R61: the data of the response to a BLK_READ that ended OK lies within the buffer. -/
def State.ResponseFits (s : State) : Prop :=
  s.seq = .resp → cmdOp s.cmd = 1#2 → resCode s.result = codeBits .ok → (cmdLen s.cmd).toNat ≤ payloadBytes s.params

theorem State.Inv.requestFits {s : State} (hi : s.Inv) : s.RequestFits := by
  intro htp dir hdir
  obtain ⟨_, dir', _, hdir', hcheck, _⟩ := hi.outstanding htp
  cases hdir'.symm.trans hdir
  exact fits_of_engineCheck_none hcheck

theorem State.Inv.responseFits {s : State} (hi : s.Inv) : s.ResponseFits :=
  fun hseq hop hcode => (hi.data_received hseq hop hcode).1

theorem accept_ne_fault (s : State) (cmdw : Word) (entry : State → State) (f : Fault) :
    s.accept cmdw entry ≠ .fault f := by
  rcases s.accept_cases cmdw entry with h | h | ⟨_, _, _, _, h⟩ <;> simp [h]

/-- R61, R113: the bytes of a write that fits the frame lie within the buffer. -/
theorem txBytes_ne_none {s : State} {dir : Dir} {hasBuf : Bool} {len : BitVec 12}
    (hfit : len.toNat + hdrSize dir ≤ s.params.maxFrame) : s.txBytes dir hasBuf len ≠ none := by
  unfold State.txBytes
  split
  · rename_i hw
    obtain ⟨rfl, _⟩ := hw
    have hbuf : len.toNat ≤ payloadBytes s.params := by
      simp only [hdrSize] at hfit
      simp only [payloadBytes, hdrSize]
      omega
    simp [State.memRead, hbuf]
  · nofun

/-- R88: the data received by a read has the length asked for. -/
theorem rx_data_length {hasBuf : Bool} {len : BitVec 12} {res : TransportResult} (hp : dataPhase hasBuf len = true)
    (hw : res.wf (rxLengths .read hasBuf len) = true) : (res.rx.getD 1 []).length = len.toNat := by
  have hlengths : res.rx.map List.length = [1, len.toNat] := by simpa [TransportResult.wf, rxLengths, hp] using hw
  calc (res.rx.getD 1 []).length = (res.rx.map List.length).getD 1 0 := (List.getD_map ..).symm
    _ = len.toNat := by rw [hlengths]; rfl

/-- R61, R113: the data received by a read that fits the frame fits the buffer. -/
theorem storeData_ne_none {s : State} {dir : Dir} {hasBuf : Bool} {len : BitVec 12} {res : TransportResult}
    (hw : res.wf (rxLengths dir hasBuf len) = true) (hfit : len.toNat + hdrSize dir ≤ s.params.maxFrame) :
    s.storeData dir hasBuf len res ≠ none := by
  rcases s.storeData_cases dir hasBuf len res with ⟨_, hs⟩ | ⟨_, _, _, hs⟩ | ⟨rfl, hp, hbig, _⟩
  · simp [hs]
  · simp [hs]
  · rw [rx_data_length hp hw] at hbig
    simp only [payloadBytes, hdrSize] at hbig hfit
    omega

theorem startTransfer_ne_fault (s : State) (dir : Dir) (hasBuf : Bool) (addr : BitVec 9) (len : BitVec 12)
    (f : Fault) : s.startTransfer dir hasBuf addr len ≠ .fault f := by
  rcases s.startTransfer_cases dir hasBuf addr len with ⟨_, _, h⟩ | ⟨hcheck, hb, _⟩ | ⟨_, _, _, h⟩
  · simp [h]
  · exact absurd hb (txBytes_ne_none (fits_of_engineCheck_none hcheck))
  · simp [h]

theorem completeTransfer_ne_fault {s : State} {dir : Dir} {hasBuf : Bool} {len : BitVec 12} (res : TransportResult)
    (hfit : len.toNat + hdrSize dir ≤ s.params.maxFrame) (f : Fault) :
    s.completeTransfer dir hasBuf len res ≠ .fault f := by
  rcases s.completeTransfer_cases dir hasBuf len res with ⟨_, h⟩ | ⟨hw, hs, _⟩ | ⟨_, _, _, h⟩
  · simp [h]
  · exact absurd hs (storeData_ne_none hw hfit)
  · simp [h]

theorem transfer_ne_fault {s : State} {dir : Dir} {hasBuf : Bool} {len : BitVec 12} (addr : BitVec 9)
    (hfit : s.tp = true → len.toNat + hdrSize dir ≤ s.params.maxFrame) (f : Fault) :
    s.transfer dir hasBuf addr len ≠ .fault f := by
  rcases s.transfer_cases dir hasBuf addr len with ⟨_, h⟩ | ⟨res, _, hc, _, h⟩ | ⟨_, _, h⟩
  · exact h ▸ startTransfer_ne_fault s dir hasBuf addr len f
  · obtain ⟨_, _, htp⟩ := State.canComplete_iff.mp hc
    exact h ▸ completeTransfer_ne_fault res (hfit htp) f
  · simp [h]

theorem rejectTransfer_ne_fault (s : State) (code : Code) (f : Fault) : s.rejectTransfer code ≠ .fault f := by
  unfold State.rejectTransfer
  split
  · nofun
  · nofun

theorem exec_decodeCmd_ne_fault (s : State) (w : Word) (f : Fault) : exec (decodeCmd w) s ≠ .fault f := by
  unfold decodeCmd
  split_ifs
  · exact accept_ne_fault _ _ _ f
  · exact accept_ne_fault _ _ _ f
  · exact accept_ne_fault _ _ _ f

theorem exec_decodeEng_ne_fault {s : State} (hfit : s.RequestFits) (f : Fault) :
    exec (decodeEng s.engreq) s ≠ .fault f := by
  unfold decodeEng
  split_ifs with hw hr
  · exact transfer_ne_fault _ (fun htp => hfit htp .write (by simp [hw, opDir])) f
  · exact transfer_ne_fault _ (fun htp => hfit htp .read (by simp [hr, opDir])) f
  · exact rejectTransfer_ne_fault s _ f

theorem execSyncAck_ne_fault {s : State} (hfit : s.RequestFits) (f : Fault) : execSyncAck s ≠ .fault f := by
  unfold execSyncAck
  split
  · rename_i hc
    obtain ⟨_, _, htp⟩ := State.canComplete_iff.mp hc
    split
    · rename_i res dir _ hdir
      exact completeTransfer_ne_fault _ (hfit htp dir hdir) f
    · nofun
  · nofun

theorem coreStep_ne_fault {s : State} (pick : Nat) (hfit : s.RequestFits) (f : Fault) :
    coreStep pick s ≠ .fault f := by
  rcases coreStep_cases pick s with h | ⟨req, _, _, h⟩ | ⟨_, h⟩
  · simp [h]
  · exact h ▸ exec_decodeCmd_ne_fault _ _ f
  · exact h ▸ exec_decodeEng_ne_fault hfit f

theorem transportStep_ne_fault {s : State} (res : TransportResult) (hfit : s.RequestFits) (f : Fault) :
    transportStep res s ≠ .fault f := by
  have hfit' : State.RequestFits { s with answer := some res } := hfit
  rcases transportStep_cases res s with h | ⟨_, _, h⟩ | ⟨_, _, h⟩
  · simp [h]
  · exact h ▸ execSyncAck_ne_fault hfit' f
  · exact h ▸ exec_decodeEng_ne_fault hfit' f

theorem response_ne_none {s : State} (hfit : s.ResponseFits) (hseq : s.seq = .resp) : s.response ≠ none := by
  by_cases hread : cmdOp s.cmd = 1#2 ∧ resCode s.result = 0#4
  · obtain ⟨hop, hcode⟩ := hread
    simp [response_of_read_ok hop hcode (hfit hseq hop hcode)]
  · simp [response_of_not_read_ok hread]

theorem takeStep_ne_fault {s : State} (r : Nat) (hfit : s.ResponseFits) (f : Fault) : takeStep r s ≠ .fault f := by
  rcases takeStep_cases r s with h | ⟨_, _, _, _, _, h⟩ | ⟨_, hseq, _, hr, _⟩
  · simp [h]
  · simp [h]
  · exact absurd hr (response_ne_none hfit hseq)

theorem offerStep_ne_fault (r : Nat) (req : Request) (s : State) (f : Fault) : offerStep r req s ≠ .fault f := by
  rcases offerStep_cases r req s with h | ⟨_, _, _, _, _, h⟩ | ⟨_, h⟩ <;> simp [h]

theorem moveStep_ne_fault {s : State} (m : Move) (hreq : s.RequestFits) (hresp : s.ResponseFits) (f : Fault) :
    moveStep m s ≠ .fault f := by
  cases m with
  | offer r req => exact offerStep_ne_fault r req s f
  | core pick => exact coreStep_ne_fault pick hreq f
  | transport res => exact transportStep_ne_fault res hreq f
  | take r => exact takeStep_ne_fault r hresp f
  | power | resetAssert | resetDeassert => nofun

theorem ownStep_ne_fault {s : State} (hreq : s.RequestFits) (f : Fault) : ownStep s ≠ .fault f := by
  have hreq' : State.RequestFits { s with choices := s.choices + 1 } := hreq
  rcases ownStep_cases s with h | ⟨pick, h⟩ | ⟨pick, h⟩
  · simp [h]
  · exact h ▸ coreStep_ne_fault pick hreq f
  · exact h ▸ coreStep_ne_fault pick hreq' f

/-- Settles O52: a start step reads only what its checks let through, and the invariant bounds the data of an
outstanding read and of a response by the buffer. -/
theorem noStepFaults : Obligations.NoStepFaults := by
  intro s hi f
  unfold step
  split
  · rename_i m rest _
    have hreq : State.RequestFits { s with moves := rest } := hi.requestFits
    have hresp : State.ResponseFits { s with moves := rest } := hi.responseFits
    exact moveStep_ne_fault m hreq hresp f
  · exact ownStep_ne_fault hi.requestFits f

end Sys2Proof.Machine
end

section
/-! The decoders by OP, the header bytes of every address, and the fields of the result word after its two updates
(R81, R83, R84, R86, R97). -/

namespace Sys2Proof.Machine

section CommandDecode
variable {w : Word}

/-- R81: OP = 0b00 selects BLK_WRITE. -/
theorem decodeCmd_of_write (h : cmdOp w = 0#2) :
    decodeCmd w = .blkWrite (cmdRsv0 w) (cmdAddr w) (cmdRsv1 w) (cmdLen w) := if_pos h

/-- R81: OP = 0b01 selects BLK_READ. -/
theorem decodeCmd_of_read (h : cmdOp w = 1#2) :
    decodeCmd w = .blkRead (cmdRsv0 w) (cmdAddr w) (cmdRsv1 w) (cmdLen w) := by
  have hw : cmdOp w ≠ 0#2 := by simp [h]
  exact (if_neg hw).trans (if_pos h)

/-- R81: OP[1] = 1 selects CMD_RESERVED, whose operand is OP[0]. -/
theorem decodeCmd_of_reserved {op0 : BitVec 1} (h : cmdOp w = 1#1 ++ op0) :
    decodeCmd w = .cmdReserved op0 (cmdRsv0 w) (cmdAddr w) (cmdRsv1 w) (cmdLen w) := by
  obtain ⟨hw, hr⟩ := reservedOp_ne op0
  rw [decodeCmd, h, if_neg hw, if_neg hr, reservedOp_low]

end CommandDecode

/-- Settles O3: one case for each value of OP, the two reserved ones being OP[1] = 1 with either OP[0]. -/
theorem commandWordDecodesByOp : Obligations.CommandWordDecodesByOp := by
  intro w
  exact ⟨decodeCmd_of_write, decodeCmd_of_read, decodeCmd_of_reserved (op0 := 0#1), decodeCmd_of_reserved (op0 := 1#1)⟩

section EngineDecode
variable {w : Word}

/-- R83: OP = 0b00 selects XFER_WRITE. -/
theorem decodeEng_of_write (h : engOp w = 0#2) :
    decodeEng w = .xferWrite (engHasBuf w) (engRsv w) (engAddr w) (engRsvHi w) (engLen w) := if_pos h

/-- R83: OP = 0b01 selects XFER_READ. -/
theorem decodeEng_of_read (h : engOp w = 1#2) :
    decodeEng w = .xferRead (engHasBuf w) (engRsv w) (engAddr w) (engRsvHi w) (engLen w) := by
  have hw : engOp w ≠ 0#2 := by simp [h]
  exact (if_neg hw).trans (if_pos h)

/-- R83: an operation code that is neither of the legal ones selects XFER_INVALID. -/
theorem decodeEng_of_invalid (hw : engOp w ≠ 0#2) (hr : engOp w ≠ 1#2) :
    decodeEng w = .xferInvalid ((engOp w).extractLsb' 0 1) (engHasBuf w) (engRsv w) (engAddr w) (engRsvHi w)
      (engLen w) :=
  (if_neg hw).trans (if_neg hr)

/-- R82: the bits of OP are the two low bits of the word. -/
theorem engOp_getLsbD {i : Nat} (hi : i < 2) : (engOp w).getLsbD i = w.getLsbD i := by
  simp [engOp, hi]

end EngineDecode

/-- R83: an operation code with OP[1] = 1 is neither of the legal ones. -/
theorem op_ne_of_high_bit {op : BitVec 2} (h : op.getLsbD 1 = true) : op ≠ 0#2 ∧ op ≠ 1#2 := by
  constructor <;> rintro rfl <;> exact absurd h (by decide)

/-- R83: the operation code of a write. -/
theorem opDir_eq_write {op : BitVec 2} (h : opDir op = some .write) : op = 0#2 := by
  revert op
  decide

/-- R83, R84: bit 0 of a write header's byte 0 is 0, whatever EXT is. -/
theorem writeHeader0_bit0 (addr : BitVec 9) : (writeHeader0 addr).getLsbD 0 = false := by
  unfold writeHeader0
  cases addr.getLsbD 8 <;> rfl

/-- R83: "encoded in header byte 0, bit 0 (0 = write, 1 = read)". -/
theorem headerFor_bit0 {op : BitVec 2} {dir : Dir} (addr : BitVec 9) (h : opDir op = some dir) :
    (headerFor dir addr).b0.getLsbD 0 = op.getLsbD 0 := by
  cases dir with
  | write =>
    obtain rfl := opDir_eq_write h
    exact writeHeader0_bit0 addr
  | read =>
    obtain rfl := opDir_eq_read h
    rfl

/-- Settles O4: the decode by the value of OP, and bit 0 of the header that each legal operation generates. -/
theorem engineRequestDecodesByOp : Obligations.EngineRequestDecodesByOp := by
  intro w
  refine ⟨fun h => ⟨_, _, decodeEng_of_write h⟩, fun h => ⟨_, _, decodeEng_of_read h⟩, fun h => ?_, fun dir addr h => ?_⟩
  · obtain ⟨hw, hr⟩ := op_ne_of_high_bit ((engOp_getLsbD (w := w) (by decide)).trans h)
    exact ⟨_, _, _, decodeEng_of_invalid hw hr⟩
  · exact (headerFor_bit0 addr h).trans (engOp_getLsbD (by decide))

/-- R90: "`ADDR[8] = 1` if and only if … `ADDR >= 256`". -/
theorem addr_ext_eq_decide (addr : BitVec 9) : addr.getLsbD 8 = decide (256 ≤ addr.toNat) :=
  BitVec.msb_eq_decide addr

/-- R84: byte 0 of a write header is 0x00 or 0x02, by the address. -/
theorem writeHeader0_eq (addr : BitVec 9) : writeHeader0 addr = if 256 ≤ addr.toNat then 0x02#8 else 0x00#8 := by
  rw [writeHeader0, addr_ext_eq_decide]
  by_cases h : 256 ≤ addr.toNat
  · rw [decide_eq_true h, if_pos h]; rfl
  · rw [decide_eq_false h, if_neg h]; rfl

/-- R84, R90: byte 1 of a write header is the address mod 256. -/
theorem writeHeader1_eq (addr : BitVec 9) : writeHeader1 addr = BitVec.ofNat 8 (addr.toNat % 256) := by
  apply BitVec.eq_of_toNat_eq
  simp [writeHeader1]

/-- Settles O6: both bytes by the address, byte 0 through EXT = ADDR[8]. -/
theorem writeHeaderOfEveryAddress : Obligations.WriteHeaderOfEveryAddress := by
  intro addr
  rw [← writeHeader0_eq, ← writeHeader1_eq]
  rfl

section PostedResult
variable (r : Word) (code : Code) (cause : BitVec 4)

@[simp] theorem resCode_setOutcome : resCode (setOutcome r code cause) = codeBits code := by
  ext i hi
  simp only [resCode, BitVec.getElem_extractLsb', setOutcome_getLsbD]
  rw [if_pos (by omega)]; simp [hi]

@[simp] theorem resCause_setOutcome : resCause (setOutcome r code cause) = cause := by
  ext i hi
  simp only [resCause, BitVec.getElem_extractLsb', setOutcome_getLsbD]
  rw [if_neg (by omega), if_pos (by omega)]; simp [hi]

@[simp] theorem resTerr_setOutcome : resTerr (setOutcome r code cause) = resTerr r :=
  setOutcome_getLsbD r code cause 9

@[simp] theorem resRsv_setOutcome : resRsv (setOutcome r code cause) = resRsv r := by
  ext i hi
  simp only [resRsv, BitVec.getElem_extractLsb', setOutcome_getLsbD]
  rw [if_neg (by omega), if_neg (by omega), if_neg (by omega), decide_eq_true (by omega), Bool.true_and]
  congr 1; omega

end PostedResult

section RecordedStatus
variable (r : Word) (tstatus : Bool)

@[simp] theorem resTerr_orTerr : resTerr (orTerr r tstatus) = (resTerr r || tstatus) := orTerr_getLsbD r tstatus 9

@[simp] theorem resCode_orTerr : resCode (orTerr r tstatus) = resCode r := by
  ext i hi
  simp only [resCode, BitVec.getElem_extractLsb', orTerr_getLsbD]
  rw [if_pos (by omega)]

@[simp] theorem resCause_orTerr : resCause (orTerr r tstatus) = resCause r := by
  ext i hi
  simp only [resCause, BitVec.getElem_extractLsb', orTerr_getLsbD]
  rw [if_pos (by omega)]

@[simp] theorem resLog_orTerr : resLog (orTerr r tstatus) = resLog r := orTerr_getLsbD r tstatus 8

@[simp] theorem resRsv_orTerr : resRsv (orTerr r tstatus) = resRsv r := by
  ext i hi
  simp only [resRsv, BitVec.getElem_extractLsb', orTerr_getLsbD]
  rw [if_neg (by omega), if_neg (by omega), decide_eq_true (by omega), Bool.true_and]
  congr 1; omega

end RecordedStatus

/-- Settles O31: field by field, from the bits of the word after each update. -/
theorem resultWordUpdates : Obligations.ResultWordUpdates :=
  ⟨fun r code cause => ⟨resCode_setOutcome r code cause, resCause_setOutcome r code cause,
      resTerr_setOutcome r code cause, resRsv_setOutcome r code cause⟩,
    fun r tstatus => ⟨resTerr_orTerr r tstatus, resCode_orTerr r tstatus, resCause_orTerr r tstatus,
      resLog_orTerr r tstatus, resRsv_orTerr r tstatus⟩⟩

/-- R97: each of the nine reachable result words has a posted code, a cause 0 or 1 and no reserved bit. -/
theorem fields_of_mem_reachableResults {r : Word} (h : r ∈ reachableResults) :
    (resCode r).toNat ≤ 6 ∧ (resCause r = 0#4 ∨ resCause r = 1#4) ∧ resRsv r = 0#22 ∧
      resCode r ≠ 1#4 ∧ resCode r ≠ 4#4 := by
  fin_cases h <;> decide

/-- Settles O32: the invariant keeps RESULT among the nine words. -/
theorem resultCodesInvariant : Obligations.ResultCodesInvariant :=
  fun _ hi => fields_of_mem_reachableResults hi.result_reachable

end Sys2Proof.Machine
end

section
/-! The checks of a start step, and the start steps of the engine requests and the header rows (R111 to R122, R132). -/

namespace Sys2Proof.Machine

section Checks
variable {maxFrame : Nat} {dir : Dir} {hasBuf : Bool} {len : BitVec 12}

/-- R113: the frame-size check fails where header and data exceed MAX_FRAME. -/
theorem engineCheck_eq_frameTooLarge_iff :
    engineCheck maxFrame dir hasBuf len = some .frameTooLarge ↔ maxFrame < len.toNat + hdrSize dir := by
  rcases engineCheck_cases maxFrame dir hasBuf len with ⟨hbig, h⟩ | ⟨hfit, _, _, h⟩ | ⟨hfit, _, h⟩
  · simp [h, hbig]
  · simp [h, hfit]
  · simp [h, hfit]

/-- R114: the buffer check comes after the size check and fails for a read without a buffer. -/
theorem engineCheck_eq_missingBuffer_iff :
    engineCheck maxFrame dir hasBuf len = some .missingBuffer ↔
      len.toNat + hdrSize dir ≤ maxFrame ∧ dir = .read ∧ hasBuf = false := by
  rcases engineCheck_cases maxFrame dir hasBuf len with ⟨hbig, h⟩ | ⟨hfit, rfl, rfl, h⟩ | ⟨_, hn, h⟩
  · simp [h, hbig.not_ge]
  · simp [h, hfit]
  · simp only [h, hn, and_false, reduceCtorEq]

/-- R111: a start step goes on to the bus where both checks pass. -/
theorem engineCheck_eq_none_iff :
    engineCheck maxFrame dir hasBuf len = none ↔
      len.toNat + hdrSize dir ≤ maxFrame ∧ ¬(dir = .read ∧ hasBuf = false) := by
  rcases engineCheck_cases maxFrame dir hasBuf len with ⟨hbig, h⟩ | ⟨_, rfl, rfl, h⟩ | ⟨hfit, hn, h⟩
  · simp [h, hbig.not_ge]
  · simp [h]
  · simp only [h, hfit, hn, not_false_eq_true, and_self]

end Checks

/-- Settles O8: the size check by its own inequality, at MAX_FRAME = 768 with each header size. -/
theorem frameSizeCheckLimits : Obligations.FrameSizeCheckLimits := by
  intro maxFrame dir hasBuf len
  refine ⟨engineCheck_eq_frameTooLarge_iff.trans not_le.symm, ?write, ?read⟩
  case write =>
    have hsize : 768 < len.toNat + hdrSize .write ↔ 767 ≤ len.toNat := by simp only [hdrSize]; omega
    exact engineCheck_eq_frameTooLarge_iff.trans hsize
  case read =>
    have hsize : 768 < len.toNat + hdrSize .read ↔ 768 ≤ len.toNat := by simp only [hdrSize]; omega
    exact engineCheck_eq_frameTooLarge_iff.trans hsize

/-- Settles O9: where the size check has passed, what is left of each condition is the buffer check's own. -/
theorem bufferCheckOnlyForReads : Obligations.BufferCheckOnlyForReads := by
  intro maxFrame dir hasBuf len hfit
  exact ⟨engineCheck_eq_missingBuffer_iff.trans (and_iff_right hfit),
    engineCheck_eq_none_iff.trans (and_iff_right hfit)⟩

theorem exec_xferWrite (hasBuf : Bool) (rsv : BitVec 5) (addr : BitVec 9) (rsvHi : BitVec 3) (len : BitVec 12)
    (s : State) : exec (.xferWrite hasBuf rsv addr rsvHi len) s = s.transfer .write hasBuf addr len := rfl

theorem exec_xferRead (hasBuf : Bool) (rsv : BitVec 5) (addr : BitVec 9) (rsvHi : BitVec 3) (len : BitVec 12)
    (s : State) : exec (.xferRead hasBuf rsv addr rsvHi len) s = s.transfer .read hasBuf addr len := rfl

theorem exec_xferInvalid (op0 : BitVec 1) (hasBuf : Bool) (rsv : BitVec 5) (addr : BitVec 9) (rsvHi : BitVec 3)
    (len : BitVec 12) (s : State) : exec (.xferInvalid op0 hasBuf rsv addr rsvHi len) s = s.rejectTransfer .invalidOp :=
  rfl

theorem State.transferring_iff {s : State} : s.transferring = true ↔ s.seq = .setaddr ∨ s.seq = .data := by
  simp [State.transferring]

section StartStep
variable {s : State} {dir : Dir} {hasBuf : Bool} {addr : BitVec 9} {len : BitVec 12}

/-- R111: the start step is enabled in SETADDR and DATA while nothing is outstanding. -/
theorem State.canStart_of_seq (hrst : s.rst = false) (htp : s.tp = false) (hseq : s.seq = .setaddr ∨ s.seq = .data) :
    s.canStart = true :=
  State.canStart_iff.mpr ⟨hrst, State.transferring_iff.mpr hseq, htp⟩

theorem transfer_of_canStart (hs : s.canStart = true) :
    s.transfer dir hasBuf addr len = s.startTransfer dir hasBuf addr len := if_pos hs

theorem rejectTransfer_of_canStart (hs : s.canStart = true) (code : Code) :
    s.rejectTransfer code = .next (s.handOutcome code) := if_pos hs

theorem encodeHeader_of_canStart (hs : s.canStart = true) (hdr : HdrReg) :
    s.encodeHeader hdr = .next (s.populateHeader hdr) := if_pos hs

/-- R111: a start step whose check fails hands the code over. -/
theorem transfer_rejected {code : Code} (hs : s.canStart = true)
    (hk : engineCheck s.params.maxFrame dir hasBuf len = some code) :
    s.transfer dir hasBuf addr len = .next (s.handOutcome code) := by
  rw [transfer_of_canStart hs, State.startTransfer, hk]

/-- R119, R120: only a write with a data phase transmits bytes of PAYLOAD, so the descriptor can be given with the bytes
that stand there in every case. -/
theorem txnFor_eq_of_txBytes {bytes : List Byte} (hdr : HdrReg) (h : s.txBytes dir hasBuf len = some bytes) :
    txnFor dir hdr hasBuf len bytes = txnFor dir hdr hasBuf len (s.readFrom 0 len.toNat) := by
  unfold txnFor
  split
  · rename_i hp
    cases dir with
    | write =>
      rw [State.txBytes, if_pos ⟨rfl, hp⟩, State.memRead] at h
      split at h <;> cases h
      rfl
    | read => rfl
  · rfl

/-- R115 to R122: a start step whose checks pass populates the header and issues its one transaction. -/
theorem transfer_issued (hs : s.canStart = true) (hk : engineCheck s.params.maxFrame dir hasBuf len = none) :
    s.transfer dir hasBuf addr len = .next ((s.populateHeader (headerFor dir addr)).issue
      (txnFor dir (headerFor dir addr) hasBuf len (s.readFrom 0 len.toNat))) := by
  rw [transfer_of_canStart hs]
  rcases s.startTransfer_cases dir hasBuf addr len with ⟨_, hcode, _⟩ | ⟨_, hb, _⟩ | ⟨bytes, _, hb, h⟩
  · cases hk.symm.trans hcode
  · exact absurd hb (txBytes_ne_none (fits_of_engineCheck_none hk))
  · rw [h, txnFor_eq_of_txBytes _ hb]

end StartStep

/-- R119, R120: the first phase of a transaction is its header phase. -/
theorem txnFor_eq_cons (dir : Dir) (hdr : HdrReg) (hasBuf : Bool) (len : BitVec 12) (bytes : List Byte) :
    ∃ more, txnFor dir hdr hasBuf len bytes = headerPhase dir hdr :: more := by
  unfold txnFor
  split
  · exact ⟨_, rfl⟩
  · exact ⟨_, rfl⟩

/-- R116, R117: the row of a transfer's header is the header encoder's action with that header. -/
theorem exec_headerRow (dir : Dir) (addr : BitVec 9) (s : State) :
    exec (headerRow dir addr) s = s.encodeHeader (headerFor dir addr) := by
  cases dir with
  | write =>
    cases hext : addr.getLsbD 8 <;> simp only [headerRow, headerFor, writeHeader0, hext] <;> rfl
  | read => rfl

/-- Settles O28: each row is the header encoder's action with its own bytes. -/
theorem headerRowsWriteHdrTx : Obligations.HeaderRowsWriteHdrTx := by
  intro s addr lo hrst htp hseq
  have hs := State.canStart_of_seq hrst htp hseq
  exact ⟨(exec_headerRow .write addr s).trans (encodeHeader_of_canStart hs _),
    (exec_headerRow .read addr s).trans (encodeHeader_of_canStart hs _),
    encodeHeader_of_canStart hs _, encodeHeader_of_canStart hs _, encodeHeader_of_canStart hs _⟩

/-- Settles O29: both sides populate the header of the address; the start step then issues a transaction whose first
phase is the header phase. -/
theorem startStepRunsItsHeaderRow : Obligations.StartStepRunsItsHeaderRow := by
  intro dir hasBuf rsv addr rsvHi len s hrst htp hseq hk
  have hs := State.canStart_of_seq hrst htp hseq
  have hissue := transfer_issued (addr := addr) hs hk
  obtain ⟨more, htxn⟩ := txnFor_eq_cons dir (headerFor dir addr) hasBuf len (s.readFrom 0 len.toNat)
  rw [htxn] at hissue
  refine ⟨s.populateHeader (headerFor dir addr), headerPhase dir (headerFor dir addr), more,
    (exec_headerRow dir addr s).trans (encodeHeader_of_canStart hs _), ?issue, rfl⟩
  case issue =>
    cases dir with
    | write => exact hissue
    | read => exact hissue

/-- Settles O15: a write has no buffer check, so its start step issues the transaction. -/
theorem xferWriteStarts : Obligations.XferWriteStarts := by
  intro hasBuf rsv addr rsvHi len s hrst htp hseq hfit
  have hk : engineCheck s.params.maxFrame .write hasBuf len = none := engineCheck_eq_none_iff.mpr ⟨hfit, by simp⟩
  rw [exec_xferWrite, transfer_issued (State.canStart_of_seq hrst htp hseq) hk]
  simp only [txnFor, dataPhase_iff]
  rfl

/-- Settles O16: with a buffer and a frame that fits, the start step of a read issues the transaction. -/
theorem xferReadStarts : Obligations.XferReadStarts := by
  intro rsv addr rsvHi len s hrst htp hseq hfit
  have hk : engineCheck s.params.maxFrame .read true len = none := engineCheck_eq_none_iff.mpr ⟨hfit, by simp⟩
  rw [exec_xferRead, transfer_issued (State.canStart_of_seq hrst htp hseq) hk]
  simp only [txnFor, dataPhase_iff, true_and]
  rfl

/-- R156, R158, R199: a transfer that fails posts a result and sends the notification, and nothing else. -/
theorem handOutcome_failed {s : State} {code : Code} (hseq : s.seq = .setaddr ∨ s.seq = .data) (hcode : code ≠ .ok) :
    ∃ r p, s.handOutcome code = { s with result := r, seq := .resp, power := p } := by
  rcases s.handOutcome_cases code with ⟨_, hok, _⟩ | ⟨_, _, h⟩ | ⟨_, h⟩ | ⟨hidle, _⟩
  · exact absurd hok hcode
  · exact ⟨_, _, h⟩
  · exact ⟨_, _, h⟩
  · simp [State.transferring_iff.mpr hseq] at hidle

/-- Settles O17: the first failing check gives the code that is handed over, and a code but OK ends the transfer. -/
theorem contractViolationsTouchNoBus : Obligations.ContractViolationsTouchNoBus := by
  intro hasBuf rsv addr rsvHi len s hrst htp hseq
  have hs := State.canStart_of_seq hrst htp hseq
  exact ⟨fun hbig => transfer_rejected hs (engineCheck_eq_frameTooLarge_iff.mpr hbig),
    fun hbig => transfer_rejected hs (engineCheck_eq_frameTooLarge_iff.mpr hbig),
    fun hfit => transfer_rejected hs (engineCheck_eq_missingBuffer_iff.mpr ⟨hfit, rfl, rfl⟩),
    fun _ hcode => handOutcome_failed hseq hcode⟩

/-- Settles O18: the rejection hands INVALID_OP over, whose outcome goes by SEQ. -/
theorem xferInvalidRejected : Obligations.XferInvalidRejected := by
  intro op0 hasBuf rsv addr rsvHi len s hrst htp
  refine ⟨fun hseq => ?data, fun hseq => ?setaddr⟩
  case data =>
    rw [exec_xferInvalid, rejectTransfer_of_canStart (State.canStart_of_seq hrst htp (.inr hseq))]
    simp only [State.handOutcome, hseq]
    rfl
  case setaddr =>
    rw [exec_xferInvalid, rejectTransfer_of_canStart (State.canStart_of_seq hrst htp (.inl hseq))]
    simp only [State.handOutcome, hseq]
    rfl

/-- Settles O19: the invariant names the request of each sequencer state, and the one read among them has its buffer. -/
theorem dataRequestIsNeverInvalid : Obligations.DataRequestIsNeverInvalid := by
  intro s hi htr
  rcases State.transferring_iff.mp htr with hseq | hseq
  · obtain ⟨_, hreq⟩ := hi.setaddr_request hseq
    exact ⟨.write, by simp [hreq, setaddrRequest, opDir], nofun⟩
  · rcases hi.data_request hseq with ⟨_, hreq⟩ | ⟨_, hreq⟩
    · exact ⟨.write, by simp [hreq, writeRequest, opDir], nofun⟩
    · exact ⟨.read, by simp [hreq, readRequest, opDir], fun _ => by simp [hreq, readRequest]⟩

end Sys2Proof.Machine
end

section
/-! The completion step of the engine requests (R123 to R127). -/

namespace Sys2Proof.Machine

section CompletionStep
variable {s : State} {dir : Dir} {hasBuf : Bool} {addr : BitVec 9} {len : BitVec 12} {res : TransportResult}

/-- R123: the completion step is enabled in SETADDR and DATA while a transaction is outstanding. -/
theorem State.canComplete_of_seq (hrst : s.rst = false) (htp : s.tp = true) (hseq : s.seq = .setaddr ∨ s.seq = .data) :
    s.canComplete = true :=
  State.canComplete_iff.mpr ⟨hrst, State.transferring_iff.mpr hseq, htp⟩

theorem State.canStart_of_tp (htp : s.tp = true) : s.canStart = false := by simp [State.canStart, htp]

theorem transfer_of_canComplete (hc : s.canComplete = true) (ha : s.answer = some res) :
    s.transfer dir hasBuf addr len = s.completeTransfer dir hasBuf len res := by
  obtain ⟨_, _, htp⟩ := State.canComplete_iff.mp hc
  simp [State.transfer, State.canStart_of_tp htp, hc, ha]

/-- R122: while TP = 1 and no completion is enabled, an engine transfer has no step. -/
theorem transfer_of_not_enabled (htp : s.tp = true) (hc : s.canComplete = false) :
    s.transfer dir hasBuf addr len = .next s := by
  simp [State.transfer, State.canStart_of_tp htp, hc]

theorem rejectTransfer_of_tp (htp : s.tp = true) (code : Code) : s.rejectTransfer code = .next s := by
  simp [State.rejectTransfer, State.canStart_of_tp htp]

/-- R34, R123: the first received byte is header byte 0 in both directions. -/
@[simp] theorem receive_hdrRx_b0 (s : State) (dir : Dir) (res : TransportResult) :
    (s.receive dir res).hdrRx.b0 = rxByte res 0 0 := by
  cases dir <;> rfl

/-- R127: PAYLOAD after a completion: a read's data phase is stored at index 0. -/
def State.payloadAfter (s : State) (dir : Dir) (hasBuf : Bool) (len : BitVec 12) (res : TransportResult) : Memory :=
  if dir = .read ∧ dataPhase hasBuf len = true then memPut s.payload 0 (res.rx.getD 1 []) else s.payload

theorem payloadAfter_of_data (s : State) (res : TransportResult) (hp : dataPhase hasBuf len = true) :
    s.payloadAfter .read hasBuf len res = memPut s.payload 0 (res.rx.getD 1 []) := if_pos ⟨rfl, hp⟩

theorem payloadAfter_of_no_data (s : State) (res : TransportResult)
    (hn : ¬(dir = .read ∧ dataPhase hasBuf len = true)) :
    s.payloadAfter dir hasBuf len res = s.payload := if_neg hn

/-- R123 to R127: the completion step for an answer of its shape whose data fits the buffer: HDR_RX, TERR and PAYLOAD
are written, then the outcome goes by the first received byte. -/
theorem completeTransfer_answered (hw : res.wf (rxLengths dir hasBuf len) = true)
    (hfit : dir = .read → dataPhase hasBuf len = true → len.toNat ≤ payloadBytes s.params) :
    s.completeTransfer dir hasBuf len res = .next (State.handOutcome
      { s.receive dir res with payload := s.payloadAfter dir hasBuf len res }
      (classify s.params.syncByte (rxByte res 0 0))) := by
  by_cases hd : dir = .read ∧ dataPhase hasBuf len = true
  · obtain ⟨rfl, hp⟩ := hd
    have hlen : (res.rx.getD 1 []).length ≤ payloadBytes s.params := rx_data_length hp hw ▸ hfit rfl hp
    rw [State.completeTransfer_next hw ((storeData_read_iff hp).mpr ⟨hlen, rfl⟩), payloadAfter_of_data s res hp]
    rfl
  · rw [State.completeTransfer_next hw (storeData_of_no_data res hd), payloadAfter_of_no_data s res hd,
      receive_hdrRx_b0]
    rfl

end CompletionStep

/-- Settles O20: a write stores nothing, so its completion is the received header and the outcome. -/
theorem xferWriteCompletes : Obligations.XferWriteCompletes := by
  intro hasBuf rsv addr rsvHi len s b0 b1 tstatus hrst htp hseq ha
  rw [exec_xferWrite, transfer_of_canComplete (State.canComplete_of_seq hrst htp hseq) ha,
    completeTransfer_answered rfl (by simp), payloadAfter_of_no_data _ _ (by simp)]
  rfl

/-- R88: one byte sequence is the answer to a read without a data phase. -/
theorem wf_header_only {hasBuf : Bool} {len : BitVec 12} (tstatus : Bool) (b0 : Byte)
    (hn : ¬ dataPhase hasBuf len = true) :
    TransportResult.wf { tstatus := tstatus, rx := [[b0]] } (rxLengths .read hasBuf len) = true := by
  simp [TransportResult.wf, rxLengths, hn]

/-- Settles O21: with a data phase the answer's second sequence goes to PAYLOAD, without one PAYLOAD stays. -/
theorem xferReadCompletes : Obligations.XferReadCompletes := by
  intro hasBuf rsv addr rsvHi len s b0 bytes tstatus hrst htp hseq
  have hc := State.canComplete_of_seq hrst htp hseq
  refine ⟨fun hbuf hpos hlen hfit ha => ?data, fun hform ha => ?headerOnly⟩
  case data =>
    have hp : dataPhase hasBuf len = true := dataPhase_iff.mpr ⟨hbuf, hpos⟩
    have hw := wf_two_sequences_iff (tstatus := tstatus).mpr ⟨rfl, hp, List.length_singleton (a := b0), hlen⟩
    rw [exec_xferRead, transfer_of_canComplete hc ha, completeTransfer_answered hw fun _ _ => hfit,
      payloadAfter_of_data _ _ hp]
    rfl
  case headerOnly =>
    have hn : ¬ dataPhase hasBuf len = true := fun hp => by
      obtain ⟨hbuf, hpos⟩ := dataPhase_iff.mp hp
      simp [hbuf, hpos.ne'] at hform
    rw [exec_xferRead, transfer_of_canComplete hc ha,
      completeTransfer_answered (wf_header_only tstatus b0 hn) fun _ hp => absurd hp hn,
      payloadAfter_of_no_data _ _ fun ⟨_, hp⟩ => hn hp]
    rfl

/-- Settles O34: the completion that answers next has stored the received data at index 0. -/
theorem xferReadPayloadFrame : Obligations.XferReadPayloadFrame := by
  intro rsv addr rsvHi len s t b0 bytes tstatus hc hpos ha h
  have hp : dataPhase true len = true := dataPhase_iff.mpr ⟨rfl, hpos⟩
  obtain ⟨_, _, hepoch⟩ := (exec_effect h).keeps_rst_moves_epoch
  rw [exec_xferRead, transfer_of_canComplete hc ha] at h
  rcases s.completeTransfer_cases .read true len { tstatus := tstatus, rx := [[b0], bytes] } with
    ⟨_, hcase⟩ | ⟨_, _, hcase⟩ | ⟨u, hw, hu, hcase⟩ <;> cases hcase.symm.trans h
  obtain ⟨_, _, _, hlen⟩ := wf_two_sequences_iff.mp hw
  obtain ⟨_, rfl⟩ := (storeData_read_iff hp).mp hu
  have hstored := handOutcome_payload { s.receive .read { tstatus := tstatus, rx := [[b0], bytes] } with
    payload := memPut s.payload 0 bytes } (classify s.params.syncByte b0)
  exact ⟨fun a hin => State.readByte_of_put_inside hstored (hlen ▸ hin),
    fun a hout => State.readByte_of_put_outside hstored hepoch (hlen ▸ hout)⟩

end Sys2Proof.Machine
end

section
/-! SYNC_ACK and the engine request it stands for (R83, R123, R125). -/

namespace Sys2Proof.Machine

/-- R83: the engine request of a legal operation is its transfer. -/
theorem exec_decodeEng_of_dir {s : State} {w : Word} {dir : Dir} (hdir : opDir (engOp w) = some dir) :
    exec (decodeEng w) s = s.transfer dir (engHasBuf w) (engAddr w) (engLen w) := by
  cases dir with
  | write => rw [decodeEng_of_write (opDir_eq_write hdir), exec_xferWrite]
  | read => rw [decodeEng_of_read (opDir_eq_read hdir), exec_xferRead]

/-- R83: an operation code that is no operation of the engine is neither of the legal ones. -/
theorem opDir_eq_none {op : BitVec 2} (h : opDir op = none) : op ≠ 0#2 ∧ op ≠ 1#2 := by
  revert op
  decide

/-- R83, R132: every other engine request is rejected. -/
theorem exec_decodeEng_of_no_dir {s : State} {w : Word} (hdir : opDir (engOp w) = none) :
    exec (decodeEng w) s = s.rejectTransfer .invalidOp := by
  obtain ⟨hw, hr⟩ := opDir_eq_none hdir
  rw [decodeEng_of_invalid hw hr, exec_xferInvalid]

section SyncAck
variable {s : State} {dir : Dir} {res : TransportResult}

/-- R123, R125: SYNC_ACK completes the transfer in ENGREQ with the sync byte put first in the answer. -/
theorem execSyncAck_of_canComplete (hc : s.canComplete = true) (ha : s.answer = some res)
    (hdir : opDir (engOp s.engreq) = some dir) :
    execSyncAck s = s.completeTransfer dir (engHasBuf s.engreq) (engLen s.engreq)
      (withSyncByte res s.params.syncByte) := by
  simp [execSyncAck, hc, ha, hdir]

theorem execSyncAck_of_not_canComplete (hc : s.canComplete = false) : execSyncAck s = .next s := by
  simp [execSyncAck, hc]

theorem execSyncAck_of_no_dir (hdir : opDir (engOp s.engreq) = none) : execSyncAck s = .next s := by
  simp [execSyncAck, hdir]

/-- An answer whose first received byte is already the sync byte is not changed by putting it there. -/
theorem withSyncByte_eq_self {b : Byte} (h : rxByte res 0 0 = b) : withSyncByte res b = res := by
  obtain ⟨tstatus, rx⟩ := res
  match rx, h with
  | [], _ => rfl
  | [] :: _, _ => rfl
  | (b0 :: more) :: rest, h =>
    have hb : b0 = b := h
    subst hb
    rfl

end SyncAck

/-- Settles O25: a legal operation completes with the same answer on both sides; otherwise neither side has a step. -/
theorem syncAckAgreesWithEngineRequest : Obligations.SyncAckAgreesWithEngineRequest := by
  intro s res htp ha hsync
  show execSyncAck s = _
  cases hdir : opDir (engOp s.engreq) with
  | none => rw [execSyncAck_of_no_dir hdir, exec_decodeEng_of_no_dir hdir, rejectTransfer_of_tp htp]
  | some dir =>
    rw [exec_decodeEng_of_dir hdir]
    cases hc : s.canComplete with
    | false => rw [execSyncAck_of_not_canComplete hc, transfer_of_not_enabled htp hc]
    | true =>
      rw [execSyncAck_of_canComplete hc ha hdir, transfer_of_canComplete hc ha, withSyncByte_eq_self hsync]

/-- R88: the second byte sequence of an answer is there exactly for a read with a data phase. -/
theorem wf_rest_ne_nil_iff {dir : Dir} {hasBuf : Bool} {len : BitVec 12} {tstatus : Bool} {rx0 : List Byte}
    {rest : List (List Byte)}
    (hw : TransportResult.wf { tstatus := tstatus, rx := rx0 :: rest } (rxLengths dir hasBuf len) = true) :
    rest ≠ [] ↔ dir = .read ∧ dataPhase hasBuf len = true := by
  have hlengths : (rx0 :: rest).map List.length = rxLengths dir hasBuf len := by simpa [TransportResult.wf] using hw
  have hrest : rest.map List.length = (rxLengths dir hasBuf len).tail := congrArg List.tail hlengths
  rw [ne_eq, ← List.map_eq_nil_iff (f := List.length), hrest]
  cases dir with
  | write => simp [rxLengths]
  | read => cases hp : dataPhase hasBuf len <;> simp [rxLengths, hp]

/-- R34: HDR_RX after a completion: a write receives both bytes, a read keeps byte 1. -/
theorem receive_hdrRx_of_cons (s : State) (dir : Dir) (tstatus : Bool) (b : Byte) (more : List Byte)
    (rest : List (List Byte)) :
    (s.receive dir { tstatus := tstatus, rx := (b :: more) :: rest }).hdrRx =
      { b0 := b, b1 := if dir = .write then more.headD 0#8 else s.hdrRx.b1 } := by
  cases dir with
  | write => cases more <;> rfl
  | read => rfl

/-- R127: PAYLOAD after a completion, read from the answer's shape. -/
theorem payloadAfter_of_cons {s : State} {dir : Dir} {hasBuf : Bool} {len : BitVec 12} {tstatus : Bool}
    {rx0 : List Byte} {rest : List (List Byte)}
    (hw : TransportResult.wf { tstatus := tstatus, rx := rx0 :: rest } (rxLengths dir hasBuf len) = true) :
    s.payloadAfter dir hasBuf len { tstatus := tstatus, rx := rx0 :: rest } =
      if dir = .read ∧ rest ≠ [] then memPut s.payload 0 (rest.headD []) else s.payload := by
  have hguard : (dir = .read ∧ dataPhase hasBuf len = true) ↔ (dir = .read ∧ rest ≠ []) := by
    rw [wf_rest_ne_nil_iff hw, and_self_left]
  have hhead : rest.getD 0 [] = rest.headD [] := by cases rest <;> rfl
  exact if_congr hguard (congrArg _ hhead) rfl

/-- Settles O24: the completion whose answer has the sync byte first, so that the outcome is OK. -/
theorem syncAckEndsTransferWithOk : Obligations.SyncAckEndsTransferWithOk := by
  intro s dir b0 more rest tstatus hrst htp hseq hdir ha hw hfit
  have hw' : TransportResult.wf { tstatus := tstatus, rx := (s.params.syncByte :: more) :: rest }
      (rxLengths dir (engHasBuf s.engreq) (engLen s.engreq)) = true := hw
  calc exec .syncAck s
      = s.completeTransfer dir (engHasBuf s.engreq) (engLen s.engreq)
          { tstatus := tstatus, rx := (s.params.syncByte :: more) :: rest } :=
        execSyncAck_of_canComplete (State.canComplete_of_seq hrst htp hseq) ha hdir
    _ = _ := completeTransfer_answered hw' fun _ _ => hfit
    _ = _ := by
      have hok : classify s.params.syncByte
          (rxByte { tstatus := tstatus, rx := (s.params.syncByte :: more) :: rest } 0 0) = .ok := if_pos rfl
      simp only [hok, payloadAfter_of_cons hw', receive_hdrRx_of_cons]
      rfl

end Sys2Proof.Machine
end

section
/-! A transport failure reaches RESULT.TERR alone (R126, R160, R194). -/

namespace Sys2Proof.Machine

/-- R159: RESULT.LOG of a posted result is what the policy says. -/
theorem resLog_setOutcome (r : Word) (code : Code) (cause : BitVec 4) :
    resLog (setOutcome r code cause) = logPolicy code := setOutcome_getLsbD r code cause 8

/-- R156, R158: the outcome of a transfer keeps RESULT or posts in it, and nothing else of it depends on RESULT. -/
theorem handOutcome_withResult (s : State) (code : Code) :
    ∃ f : Word → Word, (f = id ∨ ∃ c cause, f = fun r => setOutcome r c cause) ∧
      ∀ r, State.handOutcome { s with result := r } code = { s.handOutcome code with result := f r } := by
  cases hseq : s.seq with
  | idle | resp => exact ⟨id, .inl rfl, fun r => by simp only [State.handOutcome, hseq, id_eq]⟩
  | setaddr =>
    by_cases hcode : code = .ok
    · refine ⟨id, .inl rfl, fun r => ?_⟩
      simp only [State.handOutcome, State.afterPositioning, hseq, if_pos hcode, id_eq]
    · refine ⟨_, .inr ⟨.addrSetFail, codeBits code, rfl⟩, fun r => ?_⟩
      simp only [State.handOutcome, State.afterPositioning, hseq, if_neg hcode]
      rfl
  | data =>
    refine ⟨_, .inr ⟨translateCode code, 0#4, rfl⟩, fun r => ?_⟩
    simp only [State.handOutcome, hseq]
    rfl

/-- R127: storing a read's data neither reads nor writes RESULT. -/
theorem storeData_withResult (s : State) (r : Word) (dir : Dir) (hasBuf : Bool) (len : BitVec 12)
    (res : TransportResult) :
    State.storeData { s with result := r } dir hasBuf len res =
      (s.storeData dir hasBuf len res).map fun u => { u with result := r } := by
  unfold State.storeData State.memWrite
  split_ifs <;> rfl

/-- R123, R127: what a completion has stored does not depend on TSTATUS, which is recorded in RESULT alone. -/
theorem storeData_receive_failed {s u : State} {dir : Dir} {hasBuf : Bool} {len : BitVec 12} {rx : List (List Byte)}
    (h : (s.receive dir { tstatus := false, rx := rx }).storeData dir hasBuf len { tstatus := false, rx := rx } =
      some u) :
    (s.receive dir { tstatus := true, rx := rx }).storeData dir hasBuf len { tstatus := true, rx := rx } =
      some { u with result := orTerr s.result true } :=
  (storeData_withResult _ (orTerr s.result true) ..).trans (congrArg (Option.map _) h)

/-- Settles O26: both answers store the same data and give the same outcome code, and the outcome carries TERR over into
the result it posts, or leaves RESULT as it is. -/
theorem transportFailureOnlySetsTerr : Obligations.TransportFailureOnlySetsTerr := by
  intro s dir hasBuf len rx t h
  rcases s.completeTransfer_cases dir hasBuf len { tstatus := false, rx := rx } with
    ⟨_, hcase⟩ | ⟨_, _, hcase⟩ | ⟨u, hw, hu, hcase⟩ <;> cases hcase.symm.trans h
  have hw' : TransportResult.wf { tstatus := true, rx := rx } (rxLengths dir hasBuf len) = true := hw
  have hu_result : u.result = orTerr s.result false := by
    obtain ⟨m, rfl⟩ := storeData_eq_withPayload hu
    rfl
  obtain ⟨f, hf, hout⟩ := handOutcome_withResult u (classify u.params.syncByte u.hdrRx.b0)
  have ht : (u.handOutcome (classify u.params.syncByte u.hdrRx.b0)).result = f (orTerr s.result false) :=
    (congrArg State.result (hout u.result)).trans (congrArg f hu_result)
  refine ⟨f (orTerr s.result true),
    (State.completeTransfer_next hw' (storeData_receive_failed hu)).trans (congrArg _ (hout _)), ?fields⟩
  case fields =>
    rw [ht]
    rcases hf with rfl | ⟨c, cause, rfl⟩
    · simp
    · simp [resLog_setOutcome]

end Sys2Proof.Machine
end

section
/-! The wait for the transport (R122, R203). -/

namespace Sys2Proof.Machine

/-- R122: while TP = 1 the core has no step. -/
theorem coreStep_of_tp (pick : Nat) {s : State} (htp : s.tp = true) : coreStep pick s = .next s := by
  simp [coreStep, htp]

/-- R20: with no move scheduled the step is the core's own. -/
theorem step_of_no_moves {s : State} (h : s.moves = []) : step s = ownStep s := by
  simp only [step, h]

theorem ownStep_of_ne_idle {s : State} (h : s.seq ≠ .idle) : ownStep s = coreStep 0 s := by
  unfold ownStep
  split
  · rename_i hidle
    exact absurd hidle h
  · rfl

/-- A run stays in a state whose step changes nothing. -/
theorem run_of_step_eq_self {M : Host.Core} {s : M.State} (h : M.step s = .next s) : ∀ k, M.run k s = .next s
  | 0 => rfl
  | k + 1 => by
    rw [Host.Core.run, h]
    exact run_of_step_eq_self h k

/-- Settles O43: the core's step is not enabled while TP = 1, and with no move scheduled no other agent steps. -/
theorem coreWaitsForTheTransport : Obligations.CoreWaitsForTheTransport := by
  intro s pick htp
  refine ⟨coreStep_of_tp pick htp, fun hseq hmoves => run_of_step_eq_self (M := Sys2Proof.core) ?fixed⟩
  case fixed =>
    show step s = .next s
    rw [step_of_no_moves hmoves, ownStep_of_ne_idle hseq, coreStep_of_tp 0 htp]

end Sys2Proof.Machine
end

section
/-! The outcome of a transfer by SEQ, and the logging policy (R156, R158, R159). -/

namespace Sys2Proof.Machine

/-- Settles O30: the five rows of the policy, and bit 8 of a posted result. -/
theorem logBitFollowsPolicy : Obligations.LogBitFollowsPolicy :=
  ⟨rfl, rfl, rfl, rfl, rfl, resLog_setOutcome⟩

section Outcome
variable {s : State} {code : Code}

/-- R156, R157: a positioning write that succeeds is followed by the read request. -/
theorem handOutcome_positioned (hseq : s.seq = .setaddr) :
    s.handOutcome .ok = { s with engreq := readRequest s.cmd, seq := .data } := by
  simp [State.handOutcome, State.afterPositioning, hseq]

/-- R156: a positioning write that fails ends the command with the code as its cause. -/
theorem handOutcome_not_positioned (hseq : s.seq = .setaddr) (hcode : code ≠ .ok) :
    s.handOutcome code = s.finish .addrSetFail (codeBits code) := by
  simp [State.handOutcome, State.afterPositioning, hseq, hcode]

/-- R158: a data transfer ends the command with its translated code. -/
theorem handOutcome_of_data (hseq : s.seq = .data) : s.handOutcome code = s.finish (translateCode code) 0#4 := by
  simp [State.handOutcome, State.afterData, hseq]

end Outcome

/-- R113, R156: the positioning write passes its checks: a header of two bytes alone fits every legal frame. -/
theorem engineCheck_positioning {maxFrame : Nat} (h : 2 ≤ maxFrame) :
    engineCheck maxFrame .write false 0#12 = none := by
  have hfit : (0#12).toNat + hdrSize .write ≤ maxFrame := h
  exact engineCheck_eq_none_iff.mpr ⟨hfit, by simp⟩

/-- Settles O22: the two outcomes in SETADDR, and the checks of the positioning write. -/
theorem positioningOutcome : Obligations.PositioningOutcome := by
  refine ⟨fun s ecode hseq => ⟨?positioned, ?failed⟩, fun p hp => engineCheck_positioning hp⟩
  case positioned =>
    rintro rfl
    exact handOutcome_positioned hseq
  case failed =>
    intro hcode
    exact ⟨_, handOutcome_not_positioned hseq hcode, resCode_setOutcome .., resCause_setOutcome ..,
      resLog_setOutcome .., resTerr_setOutcome ..⟩

/-- R158: the number of a translated code. -/
theorem codeBits_translateCode (code : Code) :
    codeBits (translateCode code) = (match code with
      | .ok => 0#4
      | .nack => 5#4
      | c => codeBits c) := by
  cases code <;> rfl

/-- R220: a command is in progress only while RESET is deasserted. -/
theorem State.Inv.rst_of_ne_idle {s : State} (hi : s.Inv) (hseq : s.seq ≠ .idle) : s.rst = false := by
  by_contra hrst
  obtain ⟨hidle, _⟩ := hi.reset_holds (by simpa using hrst)
  exact hseq hidle

/-- R113, R114: a request with the buffer that its operation needs fails its checks by its size alone. -/
theorem engineCheck_with_buffer {maxFrame : Nat} {dir : Dir} {hasBuf : Bool} {len : BitVec 12}
    (hbuf : dir = .read → hasBuf = true) :
    engineCheck maxFrame dir hasBuf len = some .frameTooLarge ∨ engineCheck maxFrame dir hasBuf len = none := by
  rcases engineCheck_cases maxFrame dir hasBuf len with ⟨_, h⟩ | ⟨_, hread, hno, _⟩ | ⟨_, _, h⟩
  · exact .inl h
  · simp [hbuf hread] at hno
  · exact .inr h

/-- R158: a start step in DATA that ends the command posts FRAME_TOO_LARGE: the request is legal and has its buffer, so
its other ending is to issue the transaction, which stays in DATA. -/
theorem frameTooLarge_of_start_in_data {s t : State} (hi : s.Inv) (hseq : s.seq = .data) (htp : s.tp = false)
    (h : exec (decodeEng s.engreq) s = .next t) (ht : t.seq = .resp) : resCode t.result = 3#4 := by
  have hs : s.canStart = true := State.canStart_of_seq (hi.rst_of_ne_idle (by simp [hseq])) htp (.inr hseq)
  obtain ⟨dir, hdir, hbuf⟩ := dataRequestIsNeverInvalid s hi (State.transferring_iff.mpr (.inr hseq))
  rw [exec_decodeEng_of_dir hdir] at h
  rcases engineCheck_with_buffer (maxFrame := s.params.maxFrame) (len := engLen s.engreq) hbuf with hk | hk
  · cases (transfer_rejected hs hk).symm.trans h
    rw [handOutcome_of_data hseq]
    exact resCode_setOutcome ..
  · cases (transfer_issued hs hk).symm.trans h
    cases hseq.symm.trans ht

/-- Settles O23: the posted word field by field, and the codes that cannot arise. -/
theorem dataTransferOutcome : Obligations.DataTransferOutcome := by
  refine ⟨fun s ecode hseq => ?posted, fun s hi hseq htp t h ht => frameTooLarge_of_start_in_data hi hseq htp h ht⟩
  case posted =>
    exact ⟨_, handOutcome_of_data hseq, (resCode_setOutcome ..).trans (codeBits_translateCode ecode),
      resCause_setOutcome .., resLog_setOutcome .., resTerr_setOutcome ..⟩

end Sys2Proof.Machine
end

section
/-! The acceptance of each command, and the lock that it takes (R150 to R155, R161, R163). -/

namespace Sys2Proof.Machine

/-- R15, R152: an acceptance that is not enabled does not happen. -/
theorem State.accept_not_enabled {s : State} {cmdw : Word} {entry : State → State} (h : ¬ s.canAccept = true) :
    s.accept cmdw entry = .next s := if_neg h

/-- Settles O14: outside IDLE the acceptance of no command is enabled. -/
theorem noCommandAcceptedOutsideIdle : Obligations.NoCommandAcceptedOutsideIdle := by
  intro op0 rsv0 addr rsv1 len s hseq
  have hc : ¬ s.canAccept = true := fun hc => by
    obtain ⟨_, _, hidle⟩ := State.canAccept_iff.mp hc
    exact hseq hidle
  exact ⟨State.accept_not_enabled hc, State.accept_not_enabled hc, State.accept_not_enabled hc⟩

/-- R150, R151, R155: the acceptance of a well-formed BLK_READ. -/
theorem exec_blkRead_accepted {s : State} {req : Request} (rsv0 : BitVec 6) (addr : BitVec 9) (rsv1 : BitVec 3)
    (len : BitVec 12) (hc : s.canAccept = true) (ho : s.offerOf s.grant = some req) (hdata : req.wdata = []) :
    exec (.blkRead rsv0 addr rsv1 len) s = .next (s.latch (cmdWord 1#2 rsv0 addr rsv1 len) req.wdata).enterRead :=
  State.accept_next hc ho (by simpa [Request.wf_cmdWord_iff] using hdata)

/-- R150, R151, R163: the acceptance of a well-formed CMD_RESERVED. -/
theorem exec_cmdReserved_accepted {s : State} {req : Request} (op0 : BitVec 1) (rsv0 : BitVec 6) (addr : BitVec 9)
    (rsv1 : BitVec 3) (len : BitVec 12) (hc : s.canAccept = true) (ho : s.offerOf s.grant = some req)
    (hdata : req.wdata = []) :
    exec (.cmdReserved op0 rsv0 addr rsv1 len) s =
      .next (s.latch (cmdWord (1#1 ++ op0) rsv0 addr rsv1 len) req.wdata).enterReserved := by
  obtain ⟨hop, _⟩ := reservedOp_ne op0
  exact State.accept_next hc ho (by simpa [Request.wf_cmdWord_iff, hop] using hdata)

/-- R151: what every acceptance but a BLK_WRITE's latches: no data. -/
theorem State.latch_of_op_ne (s : State) {cmdw : Word} (wdata : List Byte) (h : cmdOp cmdw ≠ 0#2) :
    s.latch cmdw wdata = { s with
      cmd := cmdw
      owner := s.grant
      result := 0#32
      ports := s.ports.modify s.grant (fun p => { p with offer := none, waiting := true }) } := by
  have hp := State.latch_payload_of_op_ne (s := s) wdata h
  rw [State.latch_payload] at hp
  simp only [State.latch, hp]
  rfl

/-- Settles O10: the latched state and the entry actions of BLK_WRITE, with the latch condition read from the word. -/
theorem blkWriteAccepted : Obligations.BlkWriteAccepted := by
  intro rsv0 addr rsv1 len s req hrst htp hseq ho hlen
  rw [exec_blkWrite_accepted rsv0 addr rsv1 (State.canAccept_iff.mpr ⟨hrst, htp, hseq⟩) ho hlen]
  simp only [State.enterWrite, State.latch, latches_iff, writeRequest, State.emit_cmd, cmdOp_cmdWord, cmdAddr_cmdWord,
    cmdLen_cmdWord, true_and]
  rfl

/-- Settles O11: the latched state and the entry actions of BLK_READ. -/
theorem blkReadAccepted : Obligations.BlkReadAccepted := by
  intro rsv0 addr rsv1 len s req hrst htp hseq ho hdata
  rw [exec_blkRead_accepted rsv0 addr rsv1 len (State.canAccept_iff.mpr ⟨hrst, htp, hseq⟩) ho hdata,
    State.latch_of_op_ne s _ (by simp)]
  simp only [State.enterRead, setaddrRequest, State.emit_cmd, cmdAddr_cmdWord]
  rfl

/-- Settles O12: the acceptance posts INVALID_OP, and the delivery of a result other than OK carries no data. -/
theorem cmdReservedCompletesAtOnce : Obligations.CmdReservedCompletesAtOnce := by
  intro op0 rsv0 addr rsv1 len s req hrst htp hseq ho hdata
  obtain ⟨hop, _⟩ := reservedOp_ne op0
  refine ⟨_, ?accepted, rfl, ?delivered⟩
  case accepted =>
    rw [exec_cmdReserved_accepted op0 rsv0 addr rsv1 len (State.canAccept_iff.mpr ⟨hrst, htp, hseq⟩) ho hdata,
      State.latch_of_op_ne s _ (by simpa using hop), State.enterReserved, State.post, setOutcome_zero_invalidOp]
  case delivered =>
    have hcode : resCode 0x00000102#32 ≠ 0#4 := by decide
    exact takeStep_owner hrst rfl (response_of_not_read_ok fun ⟨_, hok⟩ => hcode hok)

/-- R156, R158: no outcome of a transfer releases the lock. -/
theorem handOutcome_seq_ne_idle {s : State} (code : Code) (hseq : s.seq ≠ .idle) :
    (s.handOutcome code).seq ≠ .idle := by
  rcases s.handOutcome_cases code with ⟨_, _, h⟩ | ⟨_, _, h⟩ | ⟨_, h⟩ | ⟨_, h⟩ <;> simp [h, hseq]

/-- R152: no instruction releases the lock. -/
theorem State.Effect.seq_ne_idle {s t : State} (h : s.Effect t) (hseq : s.seq ≠ .idle) : t.seq ≠ .idle := by
  cases h with
  | unchanged => exact hseq
  | accepted cmdw entry req hc ho hw he => rcases he with ⟨_, rfl⟩ | ⟨_, rfl⟩ | ⟨_, _, rfl⟩ <;> simp
  | rejected code hs => exact handOutcome_seq_ne_idle code hseq
  | encoded hdr hs => exact hseq
  | issued dir hasBuf addr len bytes hs hk hb => exact hseq
  | completed dir hasBuf len res u hc hw hu =>
    obtain ⟨m, rfl⟩ := storeData_eq_withPayload hu
    exact handOutcome_seq_ne_idle _ hseq

/-- Settles O40: no instruction releases the lock, and of the other steps only the delivery and reset write SEQ. -/
theorem onlyDeliveryOrResetReleasesLock : Obligations.OnlyDeliveryOrResetReleasesLock := by
  intro s t h hseq ht
  cases step_effect h with
  | core grant choices rest htp he | answered res rest hm hc he => exact absurd ht (he.seq_ne_idle hseq)
  | delivered resp rest hm hrst hresp hr => exact .inl ⟨hresp, rest, hm⟩
  | resetAsserted rest hm => exact .inr ⟨rest, hm⟩
  | notTaken | offered | notified | resetDeasserted => exact absurd ht hseq

end Sys2Proof.Machine
end

section
/-! SUPPORT. The steps of a command as they follow each other in a run: the acceptance, the start step, the transport's
answer and the delivery, each from the state that the run has reached. -/

namespace Sys2Proof.Machine

/-- A run that reaches a state goes on by that state's step. -/
theorem run_succ_of_step {M : Host.Core} {t : M.State} {o : Host.Outcome M.State M.Fault M.Refusal}
    (ht : M.step t = o) : ∀ {k : Nat} {s : M.State}, M.run k s = .next t → M.run (k + 1) s = o
  | 0, s, h => by
    cases h
    rw [Host.Core.run, ht]
    cases o <;> rfl
  | k + 1, s, h => by
    rw [Host.Core.run] at h ⊢
    cases hs : M.step s with
    | next u =>
      rw [hs] at h
      exact run_succ_of_step ht h
    | fault f => simp [hs] at h
    | refused r => simp [hs] at h

/-- What every step keeps, every run keeps. -/
theorem run_keeps {M : Host.Core} {P : M.State → Prop} (hstep : ∀ s t, P s → M.step s = .next t → P t) :
    ∀ {k : Nat} {s c : M.State}, P s → M.run k s = .next c → P c
  | 0, s, c, hs, h => by
    cases h
    exact hs
  | k + 1, s, c, hs, h => by
    rw [Host.Core.run] at h
    cases ht : M.step s with
    | next t =>
      rw [ht] at h
      exact run_keeps hstep (hstep s t hs ht) h
    | fault f => simp [ht] at h
    | refused r => simp [ht] at h

/-- R4, R5, R222: a run keeps the design-time parameters. -/
theorem run_params {k : Nat} {s c : State} (h : Sys2Proof.core.run k s = .next c) : c.params = s.params :=
  run_keeps (M := Sys2Proof.core) (P := fun c : State => c.params = s.params)
    (fun t u ht hu => (parametersAreFixed t u hu).trans ht) rfl h

/-- R28: nothing is outstanding in IDLE. -/
theorem State.Inv.tp_of_idle {s : State} (hi : s.Inv) (hseq : s.seq = .idle) : s.tp = false := by
  by_contra htp
  obtain ⟨htr, _⟩ := hi.outstanding (by simpa using htp)
  simp [State.transferring, hseq] at htr

/-- R5: MAX_FRAME holds a write header. -/
theorem State.Inv.two_le_maxFrame {s : State} (hi : s.Inv) : 2 ≤ s.params.maxFrame := by
  obtain ⟨⟨hmax, _⟩, _⟩ : (2 ≤ s.params.maxFrame ∧ s.params.maxFrame ≤ 4096) ∧ 1 ≤ s.params.numReq := by
    simpa [Params.wf] using hi.params_wf
  exact hmax

/-- R21: a request on a port is well formed. -/
theorem State.Inv.wf_of_offer {s : State} {r : Nat} {req : Request} (hi : s.Inv) (ho : s.offerOf r = some req) :
    req.wf = true := by
  obtain ⟨p, hp, hoffer⟩ := State.offerOf_eq_some ho
  exact (hi.offers r p req hp hoffer).1

/-- R21: the write data of an offered BLK_WRITE is LEN many bytes. -/
theorem State.Inv.wdata_length {s : State} {r : Nat} {req : Request} (hi : s.Inv) (ho : s.offerOf r = some req)
    (hop : cmdOp req.cmdw = 0#2) : req.wdata.length = (cmdLen req.cmdw).toNat := by
  simpa [Request.wf, hop] using hi.wf_of_offer ho

/-- R154: a command word with OP = 0b00 is accepted as a BLK_WRITE. -/
theorem exec_decodeCmd_of_write {w : Word} (h : cmdOp w = 0#2) (s : State) :
    exec (decodeCmd w) s = s.accept w State.enterWrite := by
  have hw := cmdWord_fields w
  rw [h] at hw
  exact (congrArg (exec · s) (decodeCmd_of_write h)).trans (congrArg (s.accept · _) hw)

/-- R155: a command word with OP = 0b01 is accepted as a BLK_READ. -/
theorem exec_decodeCmd_of_read {w : Word} (h : cmdOp w = 1#2) (s : State) :
    exec (decodeCmd w) s = s.accept w State.enterRead := by
  have hw := cmdWord_fields w
  rw [h] at hw
  exact (congrArg (exec · s) (decodeCmd_of_read h)).trans (congrArg (s.accept · _) hw)

/-- The state once the schedule has moved on to `rest`. -/
@[simps] def State.onTo (c : State) (rest : List Move) : State := { c with moves := rest }

/-- R150: the choice of requester `r` for the acceptance step. -/
@[simps] def State.granting (c : State) (r : Nat) : State := { c with grant := r }

/-- R150, R151: the first step of a command: an idle core accepts the request that the schedule picks. -/
theorem run_accepts {s : State} {r : Nat} {req : Request} {rest : List Move} {entry : State → State} (hi : s.Inv)
    (hrst : s.rst = false) (hseq : s.seq = .idle) (ho : s.offerOf r = some req) (hm : s.moves = .core r :: rest)
    (hexec : ∀ u, exec (decodeCmd req.cmdw) u = u.accept req.cmdw entry) :
    Sys2Proof.core.run 1 s = .next (entry (((s.onTo rest).granting r).latch req.cmdw req.wdata)) := by
  have htp := hi.tp_of_idle hseq
  have hacc : ((s.onTo rest).granting r).canAccept = true := State.canAccept_iff.mpr ⟨hrst, htp, hseq⟩
  refine run_succ_of_step (M := Sys2Proof.core) (k := 0) ?step rfl
  case step =>
    calc step s = coreStep r (s.onTo rest) := step_of_moves hm
      _ = exec (decodeCmd req.cmdw) ((s.onTo rest).granting r) := coreStep_idle hrst htp hseq ho
      _ = ((s.onTo rest).granting r).accept req.cmdw entry := hexec _
      _ = _ := State.accept_next hacc ho (hi.wf_of_offer ho)

/-- R82, R83, R111: an engine transfer is in progress, and these are the fields of its request. -/
structure State.Transfers (c : State) (dir : Dir) (hasBuf : Bool) (addr : BitVec 9) (len : BitVec 12) : Prop where
  rst : c.rst = false
  seq : c.seq = .setaddr ∨ c.seq = .data
  request : ∀ u, exec (decodeEng c.engreq) u = u.transfer dir hasBuf addr len

/-- R82, R83: an engine request word of a legal operation is its transfer. -/
theorem exec_decodeEng_engWord {op : BitVec 2} {dir : Dir} {hasBuf : Bool} {rsv : BitVec 5} {addr : BitVec 9}
    {rsvHi : BitVec 3} {len : BitVec 12} (hdir : opDir op = some dir) (u : State) :
    exec (decodeEng (engWord op hasBuf rsv addr rsvHi len)) u = u.transfer dir hasBuf addr len := by
  have hop : opDir (engOp (engWord op hasBuf rsv addr rsvHi len)) = some dir := by simpa using hdir
  simpa using exec_decodeEng_of_dir (s := u) hop

/-- R157: the read request takes the place of the positioning write. -/
@[simps] def State.goReading (c : State) : State := { c with engreq := readRequest c.cmd, seq := .data }

section Requests
variable {c : State} {w : Word}

/-- R154: the transfer of a BLK_WRITE. -/
theorem State.enterWrite_transfers (hrst : c.rst = false) (hcmd : c.cmd = w) :
    c.enterWrite.Transfers .write true (cmdAddr w) (cmdLen w) :=
  ⟨hrst, .inr rfl, hcmd ▸ exec_decodeEng_engWord rfl⟩

/-- R155: the positioning write of a BLK_READ. -/
theorem State.enterRead_transfers (hrst : c.rst = false) (hcmd : c.cmd = w) :
    c.enterRead.Transfers .write false (cmdAddr w) 0#12 :=
  ⟨hrst, .inl rfl, hcmd ▸ exec_decodeEng_engWord rfl⟩

/-- R157: the read transfer of a BLK_READ. -/
theorem State.goReading_transfers (hrst : c.rst = false) (hcmd : c.cmd = w) :
    c.goReading.Transfers .read true (cmdAddr w) (cmdLen w) :=
  ⟨hrst, .inr rfl, hcmd ▸ exec_decodeEng_engWord rfl⟩

end Requests

section Transfer
variable {s c : State} {k : Nat} {rest : List Move} {dir : Dir} {hasBuf : Bool} {addr : BitVec 9} {len : BitVec 12}
  {res : TransportResult}

/-- R111: the core's move in SETADDR and DATA is the transfer that ENGREQ asks for. -/
theorem step_starts {pick : Nat} (hm : c.moves = .core pick :: rest) (ht : c.Transfers dir hasBuf addr len)
    (htp : c.tp = false) : step c = (c.onTo rest).transfer dir hasBuf addr len :=
  calc step c = coreStep pick (c.onTo rest) := step_of_moves hm
    _ = exec (decodeEng c.engreq) (c.onTo rest) := coreStep_transferring ht.rst htp ht.seq
    _ = _ := ht.request _

/-- R115 to R122: a run goes on by a start step whose checks pass. -/
theorem run_issues {pick : Nat} (h : Sys2Proof.core.run k s = .next c) (hm : c.moves = .core pick :: rest)
    (ht : c.Transfers dir hasBuf addr len) (htp : c.tp = false)
    (hk : engineCheck s.params.maxFrame dir hasBuf len = none) :
    Sys2Proof.core.run (k + 1) s =
      .next (((c.onTo rest).populateHeader (headerFor dir addr)).issue
        (txnFor dir (headerFor dir addr) hasBuf len ((c.onTo rest).readFrom 0 len.toNat))) := by
  rw [← run_params h] at hk
  exact run_succ_of_step (M := Sys2Proof.core)
    ((step_starts hm ht htp).trans (transfer_issued (State.canStart_of_seq ht.rst htp ht.seq) hk)) h

/-- R28, R122: the transfer stays in progress while its transaction is outstanding. -/
theorem State.Transfers.issued {hdr : HdrReg} {txn : Txn} (ht : c.Transfers dir hasBuf addr len) :
    (((c.onTo rest).populateHeader hdr).issue txn).Transfers dir hasBuf addr len :=
  ⟨by simpa using ht.rst, by simpa using ht.seq, by simpa using ht.request⟩

/-- R113, R158, R191: a run goes on by the start step of a data transfer that is too large for the frame. -/
theorem run_rejects_oversize {pick : Nat} (h : Sys2Proof.core.run k s = .next c) (hm : c.moves = .core pick :: rest)
    (ht : c.Transfers dir hasBuf addr len) (htp : c.tp = false) (hseq : c.seq = .data)
    (hbig : s.params.maxFrame < len.toNat + hdrSize dir) :
    Sys2Proof.core.run (k + 1) s = .next ((c.onTo rest).finish .frameTooLarge 0#4) := by
  rw [← run_params h] at hbig
  refine run_succ_of_step (M := Sys2Proof.core) ?step h
  case step =>
    calc step c = (c.onTo rest).transfer dir hasBuf addr len := step_starts hm ht htp
      _ = .next ((c.onTo rest).handOutcome .frameTooLarge) :=
          transfer_rejected (State.canStart_of_seq ht.rst htp ht.seq) (engineCheck_eq_frameTooLarge_iff.mpr hbig)
      _ = _ := congrArg _ (handOutcome_of_data hseq)

/-- R123 to R127: the state in which an answer leaves the core, before its outcome is handed over. -/
@[simps] def State.answered (c : State) (dir : Dir) (hasBuf : Bool) (len : BitVec 12) (res : TransportResult) : State :=
  { c.receive dir res with payload := c.payloadAfter dir hasBuf len res }

/-- R123: the transport's answer is at hand for the completion step. -/
def State.consuming (c : State) (res : TransportResult) : State := { c with answer := some res }

/-- R123, R125: the transport's answer, of the shape of its transaction, completes the transfer in ENGREQ, whichever row
its first byte decodes to. -/
theorem step_answered (hm : c.moves = .transport res :: rest) (ht : c.Transfers dir hasBuf addr len) (htp : c.tp = true)
    (hw : res.wf (rxLengths dir hasBuf len) = true) (hfit : len.toNat + hdrSize dir ≤ c.params.maxFrame) :
    step c = .next (((c.onTo rest).answered dir hasBuf len res).handOutcome
      (classify c.params.syncByte (rxByte res 0 0))) := by
  have hc : (c.onTo rest).canComplete = true := State.canComplete_of_seq ht.rst htp ht.seq
  have hrow : transportStep res (c.onTo rest) =
      exec (decodeEng c.engreq) ((c.onTo rest).consuming res) := by
    rw [transportStep_outstanding res hc]
    split
    · rename_i hb
      exact syncAckAgreesWithEngineRequest ((c.onTo rest).consuming res) res htp rfl hb
    · rfl
  have hbuffer : dir = .read → dataPhase hasBuf len = true → len.toNat ≤ payloadBytes c.params := by
    rintro rfl _
    simp only [payloadBytes, hdrSize] at hfit ⊢
    omega
  calc step c = transportStep res (c.onTo rest) := step_of_moves hm
    _ = ((c.onTo rest).consuming res).transfer dir hasBuf addr len := hrow.trans (ht.request _)
    _ = ((c.onTo rest).consuming res).completeTransfer dir hasBuf len res :=
        transfer_of_canComplete hc rfl
    _ = _ := completeTransfer_answered hw hbuffer

/-- R158: the code posted for a data transfer that the transport answered. -/
theorem translateCode_classify (sync b : Byte) :
    translateCode (classify sync b) = if b = sync then .ok else .ioRetry := by
  unfold classify
  split <;> rfl

/-- R123, R158: a run goes on by the answer to a data transfer, which ends the command. -/
theorem run_ends_data {b : Byte} (h : Sys2Proof.core.run k s = .next c) (hm : c.moves = .transport res :: rest)
    (ht : c.Transfers dir hasBuf addr len) (htp : c.tp = true) (hseq : c.seq = .data)
    (hw : res.wf (rxLengths dir hasBuf len) = true) (hfit : len.toNat + hdrSize dir ≤ s.params.maxFrame)
    (hb : rxByte res 0 0 = b) :
    Sys2Proof.core.run (k + 1) s = .next (((c.onTo rest).answered dir hasBuf len res).finish
      (if b = s.params.syncByte then .ok else .ioRetry) 0#4) := by
  rw [← run_params h] at hfit ⊢
  rw [← translateCode_classify, ← hb]
  exact run_succ_of_step (M := Sys2Proof.core)
    ((step_answered hm ht htp hw hfit).trans (congrArg _ (handOutcome_of_data hseq))) h

end Transfer

/-- R88, R124: the first byte of an answer. -/
@[simp] theorem rxByte_first (tstatus : Bool) (b : Byte) (more : List Byte) (others : List (List Byte)) :
    rxByte { tstatus := tstatus, rx := (b :: more) :: others } 0 0 = b := rfl

section Positioning
variable {s c : State} {k : Nat} {rest : List Move} {addr : BitVec 9} {tstatus : Bool} {b0 b1 : Byte}

/-- R123, R156, R157: a run goes on by the acknowledgement of the positioning write, after which the core reads. -/
theorem run_positioned (h : Sys2Proof.core.run k s = .next c)
    (hm : c.moves = .transport { tstatus := tstatus, rx := [[b0, b1]] } :: rest)
    (ht : c.Transfers .write false addr 0#12) (htp : c.tp = true) (hseq : c.seq = .setaddr)
    (hmax : 2 ≤ s.params.maxFrame) (hsync : b0 = s.params.syncByte) :
    Sys2Proof.core.run (k + 1) s = .next
      ((c.onTo rest).answered .write false 0#12 { tstatus := tstatus, rx := [[b0, b1]] }).goReading := by
  rw [← run_params h] at hmax hsync
  have hstep := step_answered hm ht htp rfl hmax
  have hok : classify c.params.syncByte b0 = .ok := if_pos hsync
  rw [rxByte_first, hok] at hstep
  exact run_succ_of_step (M := Sys2Proof.core) (hstep.trans (congrArg _ (handOutcome_positioned hseq))) h

/-- R123, R156, R193: a run goes on by an answer to the positioning write without the sync byte: the command ends. -/
theorem run_not_positioned (h : Sys2Proof.core.run k s = .next c)
    (hm : c.moves = .transport { tstatus := tstatus, rx := [[b0, b1]] } :: rest)
    (ht : c.Transfers .write false addr 0#12) (htp : c.tp = true) (hseq : c.seq = .setaddr)
    (hmax : 2 ≤ s.params.maxFrame) (hsync : b0 ≠ s.params.syncByte) :
    Sys2Proof.core.run (k + 1) s = .next
      (((c.onTo rest).answered .write false 0#12 { tstatus := tstatus, rx := [[b0, b1]] }).finish .addrSetFail
        (codeBits .nack)) := by
  rw [← run_params h] at hmax hsync
  have hstep := step_answered hm ht htp rfl hmax
  have hnack : classify c.params.syncByte b0 = .nack := if_neg hsync
  rw [rxByte_first, hnack] at hstep
  exact run_succ_of_step (M := Sys2Proof.core)
    (hstep.trans (congrArg _ (handOutcome_not_positioned hseq (by simp)))) h

end Positioning

section Delivery
variable {s c : State} {k : Nat} {rest : List Move} {resp : Response}

/-- R161: a run goes on by the owner taking its response. -/
theorem run_delivers (h : Sys2Proof.core.run k s = .next c) (hm : c.moves = .take c.owner :: rest)
    (hrst : c.rst = false) (hseq : c.seq = .resp)
    (hresp : (c.onTo rest).response = some resp) :
    Sys2Proof.core.run (k + 1) s = .next ((c.onTo rest).deliver resp) :=
  run_succ_of_step (M := Sys2Proof.core)
    ((step_of_moves hm).trans (takeStep_owner (s := c.onTo rest) hrst hseq hresp)) h

/-- R151, R161: what the acceptance and the delivery of a command leave on the port of its requester. -/
theorem State.deliver_port {req : Request} (ho : s.offerOf c.owner = some req)
    (hports : c.ports = s.ports.modify c.owner (fun p => { p with offer := none, waiting := true })) :
    (c.deliver resp).ports[c.owner]? = some { offer := none, waiting := false, taken := some resp } := by
  obtain ⟨p, hp, _⟩ := State.offerOf_eq_some ho
  simp [hports, hp]

end Delivery

end Sys2Proof.Machine
end

section
/-! A BLK_WRITE from its offer to its response (R151 to R161, R191). -/

namespace Sys2Proof.Machine

/-- R74: what is read from index 0 after a write there is what was written. -/
theorem State.readFrom_of_put {c : State} {m : Memory} {bs : List Byte} (hp : c.payload = memPut m 0 bs) :
    c.readFrom 0 bs.length = bs := by
  apply List.ext_getElem?
  intro i
  by_cases hin : i < bs.length
  · rw [State.readFrom_getElem? c bs.length 0 i hin, Nat.zero_add, State.readByte_of_put_inside hp hin]
  · rw [List.getElem?_eq_none (by simpa using hin), List.getElem?_eq_none (by simpa using hin)]

/-- R63, R119: the bytes of a write transaction in wire order: the header, then the write data, none where LEN = 0. -/
theorem wireBytes_write {c : State} {m : Memory} {bytes : List Byte} {len : BitVec 12} (addr : BitVec 9)
    (hp : c.payload = memPut m 0 bytes) (h : bytes.length = len.toNat) :
    wireBytes (txnFor .write (headerFor .write addr) true len (c.readFrom 0 len.toNat)) =
      [writeHeader0 addr, writeHeader1 addr] ++ bytes := by
  rw [← h, State.readFrom_of_put hp]
  by_cases hd : dataPhase true len = true
  · rw [txnFor, if_pos hd]
    simp [wireBytes, phaseWireBytes, dataPhaseOf, headerBytes, headerFor]
  · have hempty : bytes = [] := by simpa [dataPhase_iff, ← h] using hd
    rw [txnFor, if_neg hd]
    simp [wireBytes, phaseWireBytes, headerBytes, headerFor, hempty]

/-- R22: the response to a BLK_WRITE carries no data. -/
theorem response_of_write {c : State} (hop : cmdOp c.cmd = 0#2) :
    c.response = some { resultw := c.result, rdata := [] } :=
  response_of_not_read_ok fun ⟨hread, _⟩ => by simp [hop] at hread

/-- R154: the transfer that an accepted BLK_WRITE goes on to. -/
theorem accepted_write_transfers {s : State} {r : Nat} {moves : List Move} (req : Request) (hrst : s.rst = false) :
    (((s.onTo moves).granting r).latch req.cmdw req.wdata).enterWrite.Transfers .write true (cmdAddr req.cmdw)
      (cmdLen req.cmdw) :=
  State.enterWrite_transfers (by simpa using hrst) rfl

/-- Settles O56: acceptance, start step, answer and delivery, the transaction carrying the latched data. -/
theorem blkWriteRunsToItsResponse : Obligations.BlkWriteRunsToItsResponse := by
  intro s r req b0 b1 tstatus rest hi hrst hseq ho hop hfit hm
  have htp := hi.tp_of_idle hseq
  have hlen := hi.wdata_length ho hop
  have hk : engineCheck s.params.maxFrame .write true (cmdLen req.cmdw) = none :=
    engineCheck_eq_none_iff.mpr ⟨hfit, by simp⟩
  have run1 := run_accepts hi hrst hseq ho hm (exec_decodeCmd_of_write hop)
  have run2 := run_issues run1 rfl (accepted_write_transfers req hrst) htp hk
  have run3 := run_ends_data (b := b0) run2 rfl (accepted_write_transfers req hrst).issued rfl rfl rfl hfit rfl
  have run4 := run_delivers run3 rfl (by simpa using hrst) rfl (response_of_write (by simpa using hop))
  refine ⟨_, _, _, run2, congrArg some ?wire, run4, by simp, by simp, by simp, by simp,
    State.deliver_port ho (by simp), rfl, rfl, by simp⟩
  case wire => exact wireBytes_write _ (State.latch_payload_of_latches req.wdata (latches_iff.mpr ⟨hop, hfit⟩)) hlen

/-- Settles O57: acceptance without latching, the start step whose size check fails, and the delivery. -/
theorem oversizeBlkWriteRejected : Obligations.OversizeBlkWriteRejected := by
  intro s r req rest hi hrst hseq ho hop hbig hm
  have htp := hi.tp_of_idle hseq
  have hnot : ¬ latches s.params req.cmdw = true := fun hl => by
    obtain ⟨_, hfit⟩ := latches_iff.mp hl
    exact hbig.not_ge hfit
  have hresult : setOutcome 0x00000000#32 .frameTooLarge 0#4 = 0x00000103#32 := by decide
  have run1 := run_accepts hi hrst hseq ho hm (exec_decodeCmd_of_write hop)
  have run2 := run_rejects_oversize run1 rfl (accepted_write_transfers req hrst) htp rfl hbig
  have run3 := run_delivers run2 rfl (by simpa using hrst) rfl (response_of_write (by simpa using hop))
  exact ⟨_, _, _, run2, by simpa using htp, by simpa using hi.no_txn htp, by simp, by simp, by simp [hnot],
    run3, by simp, by simp, State.deliver_port ho (by simp), by simp [hresult]⟩

end Sys2Proof.Machine
end

section
/-! A BLK_READ from its offer to its response (R151 to R161, R191, R193). -/

namespace Sys2Proof.Machine

/-- R155, R122: the state of an accepted BLK_READ whose positioning write is outstanding. -/
def State.seeking (s : State) (r : Nat) (req : Request) (rest : List Move) : State :=
  (((((s.onTo (.core r :: rest)).granting r).latch req.cmdw req.wdata).enterRead.onTo rest).populateHeader
    (headerFor .write (cmdAddr req.cmdw))).issue [headerPhase .write (headerFor .write (cmdAddr req.cmdw))]

/-- R156, R157: the state of a BLK_READ whose positioning write has been acknowledged. -/
def State.positioned (s : State) (r : Nat) (req : Request) (res : TransportResult) (rest : List Move) : State :=
  (((s.seeking r req (.transport res :: rest)).onTo rest).answered .write false 0#12 res).goReading

section Positioning
variable {s : State} {r : Nat} {req : Request} {rest : List Move} {res : TransportResult} {c1 : Byte} {tstatus : Bool}

@[simp] theorem State.seeking_rst : (s.seeking r req rest).rst = s.rst := by simp [State.seeking]
@[simp] theorem State.seeking_power : (s.seeking r req rest).power = s.power ++ [.activeInc] := by
  simp [State.seeking]
@[simp] theorem State.seeking_owner : (s.seeking r req rest).owner = r := by simp [State.seeking]
@[simp] theorem State.seeking_ports : (s.seeking r req rest).ports =
    s.ports.modify r (fun p => { p with offer := none, waiting := true }) := by simp [State.seeking]
@[simp] theorem State.seeking_result : (s.seeking r req rest).result = 0x00000000#32 := by simp [State.seeking]

@[simp] theorem State.positioned_params : (s.positioned r req res rest).params = s.params := by
  simp [State.positioned, State.seeking]
@[simp] theorem State.positioned_rst : (s.positioned r req res rest).rst = s.rst := by simp [State.positioned]
@[simp] theorem State.positioned_cmd : (s.positioned r req res rest).cmd = req.cmdw := by
  simp [State.positioned, State.seeking]
@[simp] theorem State.positioned_power : (s.positioned r req res rest).power = s.power ++ [.activeInc] := by
  simp [State.positioned]
@[simp] theorem State.positioned_owner : (s.positioned r req res rest).owner = r := by simp [State.positioned]
@[simp] theorem State.positioned_ports : (s.positioned r req res rest).ports =
    s.ports.modify r (fun p => { p with offer := none, waiting := true }) := by simp [State.positioned]
@[simp] theorem State.positioned_result :
    (s.positioned r req res rest).result = orTerr 0x00000000#32 res.tstatus := by simp [State.positioned]

/-- R151, R155: neither the acceptance of a BLK_READ nor its positioning write stores anything. -/
theorem State.positioned_payload (hop : cmdOp req.cmdw = 1#2) : (s.positioned r req res rest).payload = s.payload := by
  have hnot : ¬ latches s.params req.cmdw = true := by simp [latches_iff, hop]
  simp [State.positioned, State.seeking, State.payloadAfter, hnot]

theorem State.seeking_transfers (hrst : s.rst = false) :
    (s.seeking r req rest).Transfers .write false (cmdAddr req.cmdw) 0#12 :=
  (State.enterRead_transfers (by simpa using hrst) rfl).issued

theorem State.positioned_transfers (hrst : s.rst = false) :
    (s.positioned r req res rest).Transfers .read true (cmdAddr req.cmdw) (cmdLen req.cmdw) :=
  State.goReading_transfers (by simpa using hrst) rfl

/-- R151, R155: acceptance and the start step of the positioning write, whose checks always pass. -/
theorem run_seeks (hi : s.Inv) (hrst : s.rst = false) (hseq : s.seq = .idle) (ho : s.offerOf r = some req)
    (hop : cmdOp req.cmdw = 1#2) (hm : s.moves = .core r :: .core r :: rest) :
    Sys2Proof.core.run 2 s = .next (s.seeking r req rest) := by
  have run1 := run_accepts hi hrst hseq ho hm (exec_decodeCmd_of_read hop)
  exact run_issues run1 rfl (State.enterRead_transfers (by simpa using hrst) rfl) (hi.tp_of_idle hseq)
    (engineCheck_positioning hi.two_le_maxFrame)

/-- R156, R157: the positioning write is acknowledged. -/
theorem run_reaches_positioned (hi : s.Inv) (hrst : s.rst = false) (hseq : s.seq = .idle)
    (ho : s.offerOf r = some req) (hop : cmdOp req.cmdw = 1#2)
    (hm : s.moves = .core r :: .core r ::
      .transport { tstatus := tstatus, rx := [[s.params.syncByte, c1]] } :: rest) :
    Sys2Proof.core.run 3 s =
      .next (s.positioned r req { tstatus := tstatus, rx := [[s.params.syncByte, c1]] } rest) :=
  run_positioned (run_seeks hi hrst hseq ho hop hm) rfl (State.seeking_transfers hrst) rfl rfl hi.two_le_maxFrame rfl

end Positioning

/-- R22: the response to a BLK_READ whose result is not OK carries no data. -/
theorem response_of_failed {c : State} (hcode : resCode c.result ≠ 0#4) :
    c.response = some { resultw := c.result, rdata := [] } :=
  response_of_not_read_ok fun ⟨_, hok⟩ => hcode hok

/-- R193: the result of an address-set failure, by whether the transport has failed. -/
theorem setOutcome_addrSetFail (tstatus : Bool) :
    setOutcome (orTerr 0x00000000#32 tstatus) .addrSetFail (codeBits .nack) =
      if tstatus then 0x00000316#32 else 0x00000116#32 := by
  cases tstatus <;> decide

/-- R191: the result of a command too large for the frame, by whether the transport has failed before. -/
theorem setOutcome_frameTooLarge (tstatus : Bool) :
    setOutcome (orTerr 0x00000000#32 tstatus) .frameTooLarge 0#4 =
      if tstatus then 0x00000303#32 else 0x00000103#32 := by
  cases tstatus <;> decide

/-- Settles O59: the answer to the positioning write ends the command, and the delivery carries no data. -/
theorem positioningNackEndsBlkRead : Obligations.PositioningNackEndsBlkRead := by
  intro s r req c0 c1 tstatus rest hi hrst hseq ho hop hsync hm
  have run2 := run_seeks hi hrst hseq ho hop hm
  have run3 := run_not_positioned run2 rfl (State.seeking_transfers hrst) rfl rfl hi.two_le_maxFrame hsync
  have run4 := run_delivers run3 rfl (by simpa using hrst) rfl (response_of_failed (by simp [codeBits]))
  exact ⟨_, _, _, run3, by simp, by simp, by simp, run4, by simp, by simp,
    State.deliver_port ho (by simp), by simp [setOutcome_addrSetFail]⟩

/-- Settles O60: the positioning write is acknowledged, then the size check of the read fails. -/
theorem oversizeBlkReadRejectedAfterPositioning : Obligations.OversizeBlkReadRejectedAfterPositioning := by
  intro s r req c1 tstatus rest hi hrst hseq ho hop hbig hm
  have run2 := run_seeks hi hrst hseq ho hop hm
  have run3 := run_reaches_positioned hi hrst hseq ho hop hm
  have run4 := run_rejects_oversize run3 rfl (State.positioned_transfers hrst) rfl rfl hbig
  have run5 := run_delivers run4 rfl (by simpa using hrst) rfl (response_of_failed (by simp [codeBits]))
  exact ⟨_, _, _, _, run2, rfl, run4, rfl, rfl, rfl, by simp [State.positioned_payload hop], rfl, run5, rfl, by simp,
    State.deliver_port ho (by simp), by simp [setOutcome_frameTooLarge]⟩

/-- R123: TERR is sticky: two recorded values of TSTATUS are recorded as their OR. -/
theorem orTerr_orTerr (r : Word) (ts1 ts2 : Bool) : orTerr (orTerr r ts1) ts2 = orTerr r (ts1 || ts2) := by
  apply BitVec.eq_of_getLsbD_eq
  intro i _
  rcases lt_trichotomy i 9 with hlow | rfl | hhigh
  · simp only [orTerr_getLsbD, if_pos hlow]
  · change resTerr (orTerr (orTerr r ts1) ts2) = resTerr (orTerr r (ts1 || ts2))
    simp [Bool.or_assoc]
  · have hi : 10 + (i - 10) = i := by omega
    have hten : ¬ i < 10 := by omega
    simp [orTerr_getLsbD, hi, hhigh.not_gt, hten]

section ReadTransfer
variable {len : BitVec 12} {bytes : List Byte}

theorem dataPhase_of_length (h : bytes.length = len.toNat) : dataPhase true len = true ↔ bytes ≠ [] := by
  rw [dataPhase_iff, ← h, List.length_pos_iff]
  simp

/-- R120: the read transaction that asks for as many bytes as `bytes`. -/
theorem txnFor_read (addr : BitVec 9) (data : List Byte) (h : bytes.length = len.toNat) :
    txnFor .read (headerFor .read addr) true len data =
      if bytes = [] then [{ txb := some [0x01#8], rxl := true, n := 1 }]
      else [{ txb := some [0x01#8], rxl := true, n := 1 }, { txb := none, rxl := true, n := bytes.length }] := by
  rw [h]
  by_cases hb : bytes = []
  · rw [txnFor, if_neg (by simpa [dataPhase_of_length h] using hb), if_pos hb]
    rfl
  · rw [txnFor, if_pos ((dataPhase_of_length h).mpr hb), if_neg hb]
    rfl

/-- R88: the answer to a read transfer with these received bytes. -/
def readAnswer (tstatus : Bool) (b0 : Byte) (bytes : List Byte) : TransportResult :=
  { tstatus := tstatus, rx := if bytes = [] then [[b0]] else [[b0], bytes] }

@[simp] theorem readAnswer_tstatus (tstatus : Bool) (b0 : Byte) (bytes : List Byte) :
    (readAnswer tstatus b0 bytes).tstatus = tstatus := rfl

@[simp] theorem rxByte_readAnswer (tstatus : Bool) (b0 : Byte) (bytes : List Byte) :
    rxByte (readAnswer tstatus b0 bytes) 0 0 = b0 := by
  unfold readAnswer
  split <;> rfl

theorem readAnswer_wf (tstatus : Bool) (b0 : Byte) (h : bytes.length = len.toNat) :
    (readAnswer tstatus b0 bytes).wf (rxLengths .read true len) = true := by
  unfold readAnswer
  split
  · rename_i hb
    exact wf_header_only tstatus b0 (by simpa [dataPhase_of_length h] using hb)
  · rename_i hb
    exact wf_two_sequences_iff.mpr ⟨rfl, (dataPhase_of_length h).mpr hb, rfl, h⟩

/-- R127: PAYLOAD after the answer to a read holds the received bytes from index 0 on, if there are any. -/
theorem payloadAfter_readAnswer (c : State) (tstatus : Bool) (b0 : Byte) (h : bytes.length = len.toNat)
    (hb : bytes ≠ []) :
    c.payloadAfter .read true len (readAnswer tstatus b0 bytes) = memPut c.payload 0 bytes := by
  rw [payloadAfter_of_data _ _ ((dataPhase_of_length h).mpr hb), readAnswer, if_neg hb]
  rfl

end ReadTransfer

/-- R22: the response to a BLK_READ with its received bytes in PAYLOAD, by whether it ended OK. -/
theorem response_of_read {c : State} {m : Memory} {bytes : List Byte} {w : Word} {b sync : Byte}
    (hop : cmdOp c.cmd = 1#2) (hres : c.result = setOutcome w (if b = sync then .ok else .ioRetry) 0#4)
    (hlen : bytes.length = (cmdLen c.cmd).toNat) (hfit : bytes.length ≤ payloadBytes c.params)
    (hdata : bytes ≠ [] → c.payload = memPut m 0 bytes) :
    c.response = some { resultw := c.result, rdata := if b = sync then bytes else [] } := by
  by_cases hsync : b = sync
  · have hread : c.readFrom 0 bytes.length = bytes := by
      by_cases hb : bytes = []
      · simp [hb, State.readFrom]
      · exact State.readFrom_of_put (hdata hb)
    rw [response_of_read_ok hop (by simp [hres, hsync, codeBits]) (hlen ▸ hfit), ← hlen, hread, if_pos hsync]
  · rw [if_neg hsync]
    exact response_of_failed (by simp [hres, hsync, codeBits])

/-- Settles O58: the two transactions, each with its start step and its answer, and the delivery. -/
theorem blkReadRunsToItsResponse : Obligations.BlkReadRunsToItsResponse := by
  intro s r req c1 b0 bytes ts1 ts2 rest hi hrst hseq ho hop hfit hlen hm
  have hk : engineCheck s.params.maxFrame .read true (cmdLen req.cmdw) = none :=
    engineCheck_eq_none_iff.mpr ⟨hfit, by simp⟩
  have hbuffer : bytes.length ≤ payloadBytes s.params := by
    simp only [payloadBytes, hdrSize]
    omega
  have run2 := run_seeks hi hrst hseq ho hop hm
  have run3 := run_reaches_positioned hi hrst hseq ho hop hm
  have run4 := run_issues run3 rfl (State.positioned_transfers hrst) rfl hk
  have run5 := run_ends_data (res := readAnswer ts2 b0 bytes) run4 rfl (State.positioned_transfers hrst).issued rfl rfl
    (readAnswer_wf ts2 b0 hlen) hfit (rxByte_readAnswer ts2 b0 bytes)
  have run6 := run_delivers run5 rfl (by simpa using hrst) rfl
    (response_of_read (by simpa using hop) rfl (by simpa using hlen) (by simpa using hbuffer)
      (payloadAfter_readAnswer _ ts2 b0 hlen))
  exact ⟨_, _, _, _, run2, rfl, run4, congrArg some (txnFor_read _ _ hlen), run6, rfl, rfl,
    by simp, State.deliver_port ho (by simp), rfl, by simp [orTerr_orTerr]⟩

end Sys2Proof.Machine
end

section
/-! RESET: while it is asserted no step of the core is enabled, and asserting it leaves nothing to answer
(R220, R221, I11). -/

namespace Sys2Proof.Machine

section NotEnabled
variable {s : State} {dir : Dir} {hasBuf : Bool} {addr : BitVec 9} {len : BitVec 12}

/-- R15: an engine transfer of which neither step is enabled does not happen. -/
theorem transfer_of_neither_step (hs : s.canStart = false) (hc : s.canComplete = false) :
    s.transfer dir hasBuf addr len = .next s := by
  simp [State.transfer, hs, hc]

theorem rejectTransfer_of_not_canStart (hs : s.canStart = false) (code : Code) : s.rejectTransfer code = .next s := by
  simp [State.rejectTransfer, hs]

theorem encodeHeader_of_not_canStart (hs : s.canStart = false) (hdr : HdrReg) : s.encodeHeader hdr = .next s := by
  simp [State.encodeHeader, hs]

/-- R220, I11: an answer is not consumed where no completion step is enabled. -/
theorem transportStep_of_not_canComplete (res : TransportResult) (hc : s.canComplete = false) :
    transportStep res s = .next s := by
  simp [transportStep, hc]

theorem State.canComplete_of_not_tp (htp : s.tp = false) : s.canComplete = false := by simp [State.canComplete, htp]

end NotEnabled

section ResetAsserted
variable {s : State}

theorem State.canAccept_of_rst (hrst : s.rst = true) : s.canAccept = false := by simp [State.canAccept, hrst]

theorem State.canStart_of_rst (hrst : s.rst = true) : s.canStart = false := by simp [State.canStart, hrst]

theorem State.canComplete_of_rst (hrst : s.rst = true) : s.canComplete = false := by simp [State.canComplete, hrst]

/-- R221: each instruction is an acceptance, an engine step or a completion, none of which is enabled. -/
theorem exec_of_rst (hrst : s.rst = true) (i : Instr) : exec i s = .next s := by
  have hacc : ¬ s.canAccept = true := by simp [State.canAccept_of_rst hrst]
  have hs := State.canStart_of_rst hrst
  have hc := State.canComplete_of_rst hrst
  cases i with
  | blkWrite | blkRead | cmdReserved => exact State.accept_not_enabled hacc
  | xferWrite | xferRead => exact transfer_of_neither_step hs hc
  | xferInvalid => exact rejectTransfer_of_not_canStart hs _
  | hdrWrite | hdrWriteExt | hdrRead => exact encodeHeader_of_not_canStart hs _
  | syncAck => exact execSyncAck_of_not_canComplete hc

theorem coreStep_of_rst (hrst : s.rst = true) (pick : Nat) : coreStep pick s = .next s := by
  simp [coreStep, hrst]

end ResetAsserted

/-- Settles O48: the instructions, the core's step, the transport's and the delivery each ask for RESET deasserted. -/
theorem noStepWhileResetAsserted : Obligations.NoStepWhileResetAsserted := fun _ hrst =>
  ⟨exec_of_rst hrst, coreStep_of_rst hrst,
    fun res => transportStep_of_not_canComplete res (State.canComplete_of_rst hrst),
    fun _ => takeStep_not_enabled (.inl hrst)⟩

/-- R42, R220: asserting RESET gives the registers their reset values. -/
theorem State.assertReset_atReset (s : State) : s.assertReset.AtReset :=
  ⟨rfl, rfl, rfl, rfl, rfl, rfl, rfl, rfl, rfl⟩

/-- R204, RS3: asserting RESET keeps the offers and the responses taken; it only ends the waiting. -/
theorem State.assertReset_offers_taken (s : State) :
    s.assertReset.ports.map (fun p => (p.offer, p.taken)) = s.ports.map (fun p => (p.offer, p.taken)) := by
  simp [Function.comp_def]

/-- Settles O47: the next state is `State.assertReset`'s, in which TP = 0, so that no answer is consumed whether RESET
is asserted or not. -/
theorem resetTakesEffectInAnyState : Obligations.ResetTakesEffectInAnyState := by
  intro s rest hm
  refine ⟨(s.onTo rest).assertReset, step_of_moves hm, rfl, State.assertReset_atReset _, rfl, rfl, rfl,
    State.assertReset_offers_taken _, fun res => ?asserted, fun res => ?deasserted⟩
  case asserted => exact transportStep_of_not_canComplete res (State.canComplete_of_not_tp rfl)
  case deasserted => exact transportStep_of_not_canComplete res (State.canComplete_of_not_tp rfl)

end Sys2Proof.Machine
end

section
/-! Which steps are refused: a malformed offer and an answer of the wrong shape, and no other (R21, R88, R225, R227). -/

namespace Sys2Proof.Machine

/-- R21: every request that stands on a port is well formed. -/
def State.OffersWf (s : State) : Prop := ∀ r req, s.offerOf r = some req → req.wf = true

theorem State.Inv.offersWf {s : State} (hi : s.Inv) : s.OffersWf := fun _ _ => hi.wf_of_offer

/-- R163: a command word with OP[1] = 1 is accepted as a CMD_RESERVED. -/
theorem exec_decodeCmd_of_reserved {w : Word} (h0 : cmdOp w ≠ 0#2) (h1 : cmdOp w ≠ 1#2) (s : State) :
    exec (decodeCmd w) s = s.accept w State.enterReserved := by
  have hop := reservedOp_eq (cmdOp w) h0 h1
  have hw := cmdWord_fields w
  rw [← hop] at hw
  exact (congrArg (exec · s) (decodeCmd_of_reserved hop.symm)).trans (congrArg (s.accept · _) hw)

/-- R154, R155, R163: every command word is accepted as it stands, with the entry actions of its row. -/
theorem exec_decodeCmd_eq_accept (w : Word) (s : State) : ∃ entry, exec (decodeCmd w) s = s.accept w entry := by
  by_cases h0 : cmdOp w = 0#2
  · exact ⟨_, exec_decodeCmd_of_write h0 s⟩
  · by_cases h1 : cmdOp w = 1#2
    · exact ⟨_, exec_decodeCmd_of_read h1 s⟩
    · exact ⟨_, exec_decodeCmd_of_reserved h0 h1 s⟩

theorem startTransfer_ne_refused (s : State) (dir : Dir) (hasBuf : Bool) (addr : BitVec 9) (len : BitVec 12)
    (r : Refusal) : s.startTransfer dir hasBuf addr len ≠ .refused r := by
  rcases s.startTransfer_cases dir hasBuf addr len with ⟨_, _, h⟩ | ⟨_, _, h⟩ | ⟨_, _, _, h⟩ <;> simp [h]

/-- R111: a start step is never refused; only a completion looks at an answer. -/
theorem exec_decodeEng_ne_refused {s : State} (hs : s.canStart = true) (w : Word) (r : Refusal) :
    exec (decodeEng w) s ≠ .refused r := by
  cases hdir : opDir (engOp w) with
  | none => simp [exec_decodeEng_of_no_dir hdir, rejectTransfer_of_canStart hs]
  | some dir =>
    rw [exec_decodeEng_of_dir hdir, transfer_of_canStart hs]
    exact startTransfer_ne_refused s dir _ _ _ r

/-- R21, R225: with the requests on the ports well formed, the core's step is never refused. -/
theorem coreStep_ne_refused {s : State} (hwf : s.OffersWf) (pick : Nat) (r : Refusal) :
    coreStep pick s ≠ .refused r := by
  rcases coreStep_cases pick s with h | ⟨req, hc, ho, h⟩ | ⟨hs, h⟩
  · simp [h]
  · obtain ⟨entry, haccept⟩ := exec_decodeCmd_eq_accept req.cmdw (s.granting pick)
    have hnext := h.trans (haccept.trans (State.accept_next hc ho (hwf pick req ho)))
    simp [hnext]
  · exact h ▸ exec_decodeEng_ne_refused hs s.engreq r

theorem ownStep_ne_refused {s : State} (hwf : s.OffersWf) (r : Refusal) : ownStep s ≠ .refused r := by
  have hwf' : State.OffersWf { s with choices := s.choices + 1 } := hwf
  rcases ownStep_cases s with h | ⟨pick, h⟩ | ⟨pick, h⟩
  · simp [h]
  · exact h ▸ coreStep_ne_refused hwf pick r
  · exact h ▸ coreStep_ne_refused hwf' pick r

/-- R21, R225: an offer is refused only where it is malformed. -/
theorem offerStep_refused {q : Nat} {req : Request} {s : State} {r : Refusal}
    (h : offerStep q req s = .refused r) : r = .malformedRequest ∧ req.wf = false := by
  rcases offerStep_cases q req s with ho | ⟨_, _, _, _, _, ho⟩ | ⟨hreq, ho⟩ <;> cases ho.symm.trans h
  exact ⟨rfl, hreq⟩

theorem takeStep_ne_refused (q : Nat) (s : State) (r : Refusal) : takeStep q s ≠ .refused r := by
  rcases takeStep_cases q s with h | ⟨_, _, _, _, _, h⟩ | ⟨_, _, _, _, h⟩ <;> simp [h]

/-- R88, R119, R120: the receiving phases of a transfer's descriptor have the lengths that its completion asks for. -/
theorem txnRxLengths_txnFor (dir : Dir) (hdr : HdrReg) (hasBuf : Bool) (len : BitVec 12) (bytes : List Byte) :
    txnRxLengths (txnFor dir hdr hasBuf len bytes) = rxLengths dir hasBuf len := by
  cases dir with
  | write => cases hp : dataPhase hasBuf len <;> simp only [txnFor, hp] <;> rfl
  | read => cases hp : dataPhase hasBuf len <;> simp only [txnFor, rxLengths, hp] <;> rfl

/-- R123, R125: the transport's answer to the outstanding transaction of a legal request is judged by the completion
step, whichever row its first byte decodes to. -/
theorem transportStep_eq_completeTransfer {s : State} {dir : Dir} (res : TransportResult) (hc : s.canComplete = true)
    (hdir : opDir (engOp s.engreq) = some dir) :
    transportStep res s = (s.consuming res).completeTransfer dir (engHasBuf s.engreq) (engLen s.engreq) res := by
  have hc' : (s.consuming res).canComplete = true := hc
  have heng : exec (decodeEng s.engreq) (s.consuming res) =
      (s.consuming res).completeTransfer dir (engHasBuf s.engreq) (engLen s.engreq) res :=
    (exec_decodeEng_of_dir hdir).trans (transfer_of_canComplete hc' rfl)
  rw [transportStep_outstanding res hc]
  split
  · rename_i hb
    obtain ⟨_, _, htp⟩ := State.canComplete_iff.mp hc
    exact (syncAckAgreesWithEngineRequest (s.consuming res) res htp rfl hb).trans heng
  · exact heng

/-- An outstanding transaction stays the one that ENGREQ asks for as the schedule moves on. -/
theorem State.Outstanding.onTo {s : State} (h : s.Outstanding) (rest : List Move) : (s.onTo rest).Outstanding := by
  obtain ⟨dir, bytes, hdir, hcheck, hbytes, hhdr, htxn⟩ := h
  have hbytes' := (State.txBytes_congr (s := s) (t := s.onTo rest) rfl rfl rfl ..).trans hbytes
  exact ⟨dir, bytes, hdir, hcheck, hbytes', hhdr, htxn⟩

/-- R88, R227: an answer is refused only where it has not the shape of the outstanding transaction. -/
theorem transportStep_refused {s : State} {res : TransportResult} {r : Refusal} (hout : s.tp = true → s.Outstanding)
    (h : transportStep res s = .refused r) :
    r = .malformedAnswer ∧ ∃ txn, s.txn = some txn ∧ res.wf (txnRxLengths txn) = false := by
  cases hc : s.canComplete with
  | false => cases (transportStep_of_not_canComplete res hc).symm.trans h
  | true =>
    obtain ⟨_, _, htp⟩ := State.canComplete_iff.mp hc
    obtain ⟨dir, bytes, hdir, _, _, _, htxn⟩ := hout htp
    rw [transportStep_eq_completeTransfer res hc hdir] at h
    rcases State.completeTransfer_cases (s.consuming res) dir (engHasBuf s.engreq) (engLen s.engreq) res with
      ⟨hw, ha⟩ | ⟨_, _, ha⟩ | ⟨_, _, _, ha⟩ <;> cases ha.symm.trans h
    exact ⟨rfl, _, htxn, txnRxLengths_txnFor .. ▸ hw⟩

/-- Settles O53: of the agents' steps only an offer and an answer can be refused; the invariant keeps malformed requests
off the ports, and gives the descriptor on the transport port the shape that the completion step asks for. -/
theorem onlyMalformedInputsRefused : Obligations.OnlyMalformedInputsRefused := by
  intro s r hi h
  cases hm : s.moves with
  | nil => exact absurd ((step_of_no_moves hm).symm.trans h) (ownStep_ne_refused hi.offersWf r)
  | cons m rest =>
    have hmove : moveStep m (s.onTo rest) = .refused r := (step_of_moves hm).symm.trans h
    have hwf : (s.onTo rest).OffersWf := hi.offersWf
    have hout : (s.onTo rest).tp = true → (s.onTo rest).Outstanding := fun htp =>
      (hi.outstanding htp).2.onTo rest
    cases m with
    | offer q req =>
      obtain ⟨rfl, hreq⟩ := offerStep_refused hmove
      exact .inl ⟨rfl, q, req, rest, rfl, hreq⟩
    | core pick => exact absurd hmove (coreStep_ne_refused hwf pick r)
    | transport res =>
      obtain ⟨rfl, txn, htxn, hw⟩ := transportStep_refused hout hmove
      exact .inr ⟨rfl, res, rest, txn, rfl, htxn, hw⟩
    | take q => exact absurd hmove (takeStep_ne_refused q _ r)
    | power | resetAssert | resetDeassert => cases hmove

end Sys2Proof.Machine
end

section
/-! Encoding and decoding undo each other, in every place that a word can stand in (spec/30_encoding.md sections 1 to
5). -/

namespace Sys2Proof.Machine

/-- Settles O1: the fields of a built word are the operands it was built from, and each header has its own first byte. -/
theorem decodeInvertsEncode : Obligations.DecodeInvertsEncode := by
  intro sync i
  cases i with
  | blkWrite rsv0 addr rsv1 len => simp [encode, decode, decodeCmd_of_write]
  | blkRead rsv0 addr rsv1 len => simp [encode, decode, decodeCmd_of_read]
  | cmdReserved op0 rsv0 addr rsv1 len => simp [encode, decode, decodeCmd_of_reserved (cmdOp_cmdWord (1#1 ++ op0) ..)]
  | xferWrite hasBuf rsv addr rsvHi len => simp [encode, decode, decodeEng_of_write]
  | xferRead hasBuf rsv addr rsvHi len => simp [encode, decode, decodeEng_of_read]
  | xferInvalid op0 hasBuf rsv addr rsvHi len =>
    obtain ⟨hw, hr⟩ := reservedOp_ne op0
    simp [encode, decode, decodeEng_of_invalid, hw, hr]
  | hdrWrite addrLo => rfl
  | hdrWriteExt addrLo => rfl
  | hdrRead => rfl
  | syncAck => exact if_pos rfl

/-- Settles O5: each word is the encoding of the instruction it stands for. -/
theorem wordsOfEveryFormatDecode : Obligations.WordsOfEveryFormatDecode :=
  ⟨decodeInvertsEncode _ (.blkWrite 0#6 266#9 0#3 2#12), decodeInvertsEncode _ (.blkRead 0#6 10#9 0#3 4#12),
    decodeInvertsEncode _ (.cmdReserved 1#1 0#6 5#9 0#3 7#12),
    decodeInvertsEncode _ (.xferWrite true 0#5 10#9 0#3 4#12),
    decodeInvertsEncode _ (.xferRead false 0#5 0#9 0#3 800#12),
    decodeInvertsEncode _ (.xferInvalid 0#1 false 0#5 0#9 0#3 0#12), decodeInvertsEncode _ (.hdrWrite 0xFF#8),
    decodeInvertsEncode _ (.hdrWriteExt 0x2C#8), decodeInvertsEncode _ .hdrRead, decodeInvertsEncode _ .syncAck⟩

/-- R80, R81: no bit of a command word is dropped. -/
theorem encode_decodeCmd (sync : Byte) (w : Word) : encode sync (decodeCmd w) = .cmd w := by
  have hfields := cmdWord_fields w
  by_cases hw : cmdOp w = 0#2
  · simpa [decodeCmd_of_write hw, encode, hw] using hfields
  · by_cases hr : cmdOp w = 1#2
    · simpa [decodeCmd_of_read hr, encode, hr] using hfields
    · have hop := reservedOp_eq (cmdOp w) hw hr
      simpa [decodeCmd_of_reserved hop.symm, encode, hop] using hfields

/-- R82, R83: no bit of an engine request word is dropped. -/
theorem encode_decodeEng (sync : Byte) (w : Word) : encode sync (decodeEng w) = .engreq w := by
  have hfields := engWord_fields w
  by_cases hw : engOp w = 0#2
  · simpa [decodeEng_of_write hw, encode, hw] using hfields
  · by_cases hr : engOp w = 1#2
    · simpa [decodeEng_of_read hr, encode, hr] using hfields
    · have hop := reservedOp_eq (engOp w) hw hr
      simpa [decodeEng_of_invalid hw hr, encode, hop] using hfields

/-- R96, R98: the bytes that decode to a header are its encoding, with the data phase after it. -/
theorem decodeHeader_eq_ok {bytes rest : List Byte} {i : Instr} (sync : Byte)
    (h : decodeHeader bytes = .ok (i, rest)) : ∃ hdr, encode sync i = .tx hdr ∧ bytes = hdr ++ rest := by
  unfold decodeHeader at h
  split at h
  · cases h
  · rename_i b0 more
    split_ifs at h with h1 h0 h2
    · subst h1
      cases h
      exact ⟨_, rfl, rfl⟩
    · subst h0
      cases more <;> cases h
      exact ⟨_, rfl, rfl⟩
    · subst h2
      cases more <;> cases h
      exact ⟨_, rfl, rfl⟩

/-- R96, R98: the words in the transmitted header's place that decode are a header with nothing after it. -/
theorem decode_tx_eq_ok {sync : Byte} {bytes : List Byte} {i : Instr} (h : decode sync (.tx bytes) = .ok i) :
    decodeHeader bytes = .ok (i, []) := by
  simp only [decode] at h
  split at h <;> cases h
  assumption

/-- R125: the one received byte that decodes is SYNC_BYTE. -/
theorem decodeRx_eq_ok {sync b : Byte} {i : Instr} (h : decodeRx sync b = .ok i) : i = .syncAck ∧ b = sync := by
  unfold decodeRx at h
  split at h <;> cases h
  exact ⟨rfl, ‹_›⟩

/-- Settles O2: by the place of the words. -/
theorem encodeInvertsDecode : Obligations.EncodeInvertsDecode := by
  intro sync img i h
  cases img with
  | cmd w =>
    cases h
    exact encode_decodeCmd sync w
  | engreq w =>
    cases h
    exact encode_decodeEng sync w
  | tx bytes =>
    obtain ⟨hdr, henc, hbytes⟩ := decodeHeader_eq_ok sync (decode_tx_eq_ok h)
    simpa [hbytes] using henc
  | rx b =>
    obtain ⟨rfl, rfl⟩ := decodeRx_eq_ok h
    rfl

/-- Settles O7: EXT tells the two write headers apart, and bit 0 the read header; the payload is not looked at. -/
theorem transmittedHeaderDecodesToItsRow : Obligations.TransmittedHeaderDecodesToItsRow := by
  intro dir addr payload
  cases dir with
  | read => rfl
  | write =>
    cases hext : addr.getLsbD 8 <;> simp only [headerRow, headerFor, writeHeader0, hext] <;> rfl

end Sys2Proof.Machine
end

section
/-! The invariant by what the core is doing: no command in progress, a command whose transfer is not on the bus, a command
whose result is posted (R27, R28). Each of these is a way to the whole invariant. -/

namespace Sys2Proof.Machine

/-- The part of the invariant that does not ask how far a command is: the parameters, the requesters' ports, PAYLOAD's
form and HDR_TX. `busy` says whether a command is in progress, so that its owner waits (R152). -/
structure State.Standing (s : State) (busy : Prop) : Prop where
  params_wf : s.params.wf = true
  ports_length : s.ports.length = s.params.numReq
  owner_lt : s.owner < s.params.numReq
  payload_wf : Memory.wf s.payload
  payload_below : Memory.below s.payload (payloadBytes s.params)
  no_answer : s.answer = none
  header_legal : s.hdrTx.b0 = 0x00#8 ∨ s.hdrTx.b0 = 0x02#8 ∨ s.hdrTx = { b0 := 0x01#8, b1 := 0x00#8 }
  lock : ∀ (r : Nat) (p : ReqPort), s.ports[r]? = some p → (p.waiting = true ↔ busy ∧ r = s.owner)
  offers : ∀ (r : Nat) (p : ReqPort) (req : Request), s.ports[r]? = some p → p.offer = some req →
    req.wf = true ∧ p.waiting = false

/-- R27, R154, R155, R157: the transfer that SEQ and ENGREQ stand for, by the command in CMD. -/
inductive State.Requested (s : State) : Prop
  /-- the positioning write of a BLK_READ -/
  | positioning (hseq : s.seq = .setaddr) (hop : cmdOp s.cmd = 1#2) (hreq : s.engreq = setaddrRequest s.cmd)
  /-- the write of a BLK_WRITE, its data latched where it fits (R151) -/
  | writing (hseq : s.seq = .data) (hop : cmdOp s.cmd = 0#2) (hreq : s.engreq = writeRequest s.cmd)
      (hlatched : (cmdLen s.cmd).toNat + 2 ≤ s.params.maxFrame → s.written (cmdLen s.cmd).toNat)
  /-- the read of a BLK_READ -/
  | reading (hseq : s.seq = .data) (hop : cmdOp s.cmd = 1#2) (hreq : s.engreq = readRequest s.cmd)

theorem State.Requested.transferring {s : State} (h : s.Requested) : s.transferring = true := by
  cases h with
  | positioning hseq => exact State.transferring_iff.mpr (.inl hseq)
  | writing hseq | reading hseq => exact State.transferring_iff.mpr (.inr hseq)

/-- R22, R36, R61: the data that a response delivers lies within the buffer and has been received. -/
def State.DataReceived (s : State) : Prop :=
  cmdOp s.cmd = 1#2 → (cmdLen s.cmd).toNat ≤ payloadBytes s.params ∧ s.written (cmdLen s.cmd).toNat

section FromInvariant
variable {s : State}

theorem State.Inv.standing_idle (hi : s.Inv) (hseq : s.seq = .idle) : s.Standing False where
  __ := hi
  lock := by simpa [hseq] using hi.lock

theorem State.Inv.standing_busy (hi : s.Inv) (hseq : s.seq ≠ .idle) : s.Standing True where
  __ := hi
  lock := by simpa [hseq] using hi.lock

theorem State.ne_idle_of_transferring (htr : s.transferring = true) : s.seq ≠ .idle := by
  rcases State.transferring_iff.mp htr with hseq | hseq <;> simp [hseq]

theorem State.Inv.requested (hi : s.Inv) (htr : s.transferring = true) : s.Requested := by
  rcases State.transferring_iff.mp htr with hseq | hseq
  · obtain ⟨hop, hreq⟩ := hi.setaddr_request hseq
    exact .positioning hseq hop hreq
  · rcases hi.data_request hseq with ⟨hop, hreq⟩ | ⟨hop, hreq⟩
    · exact .writing hseq hop hreq (hi.data_latched hseq hop)
    · exact .reading hseq hop hreq

end FromInvariant

section ToInvariant
variable {s : State}

/-- R27, R220: the invariant while no command is in progress. -/
theorem State.Standing.inv_of_idle (h : s.Standing False) (hseq : s.seq = .idle) (htp : s.tp = false)
    (htxn : s.txn = none) (hresult : s.result ∈ reachableResults) (hreset : s.rst = true → s.AtReset) : s.Inv where
  __ := h
  reset_holds := hreset
  setaddr_request := by simp [hseq]
  data_request := by simp [hseq]
  outstanding := by simp [htp]
  no_txn _ := htxn
  result_reachable := hresult
  result_running := by simp [State.transferring, hseq]
  data_latched := by simp [hseq]
  data_received := by simp [hseq]
  lock := by simpa [hseq] using h.lock

/-- R35: the two values of RESULT before a result is posted are reachable. -/
theorem mem_reachableResults_of_running {r : Word} (h : r = 0x000#32 ∨ r = 0x200#32) : r ∈ reachableResults := by
  rcases h with rfl | rfl <;> decide

/-- R28, R111: the invariant while a command's transfer is not on the bus. -/
theorem State.Standing.inv_of_requested (h : s.Standing True) (hreq : s.Requested) (hrst : s.rst = false)
    (htp : s.tp = false) (htxn : s.txn = none) (hresult : s.result = 0x000#32 ∨ s.result = 0x200#32) : s.Inv where
  __ := h
  reset_holds := by simp [hrst]
  setaddr_request hseq := by
    cases hreq with
    | positioning _ hop heng => exact ⟨hop, heng⟩
    | writing hdata | reading hdata => simp [hdata] at hseq
  data_request hseq := by
    cases hreq with
    | positioning hset => simp [hset] at hseq
    | writing _ hop heng => exact .inl ⟨hop, heng⟩
    | reading _ hop heng => exact .inr ⟨hop, heng⟩
  outstanding := by simp [htp]
  no_txn _ := htxn
  result_reachable := mem_reachableResults_of_running hresult
  result_running _ := hresult
  data_latched hseq hop := by
    cases hreq with
    | positioning hset => simp [hset] at hseq
    | writing _ _ _ hlatched => exact hlatched
    | reading _ hread => simp [hread] at hop
  data_received hseq := absurd hreq.transferring (by simp [State.transferring, hseq])
  lock := by simpa [State.ne_idle_of_transferring hreq.transferring] using h.lock

/-- R161, R199: the invariant once a command's result is posted. -/
theorem State.Standing.inv_of_posted (h : s.Standing True) (hseq : s.seq = .resp) (hrst : s.rst = false)
    (htp : s.tp = false) (htxn : s.txn = none) (hresult : s.result ∈ reachableResults)
    (hdata : resCode s.result = codeBits .ok → s.DataReceived) : s.Inv where
  __ := h
  reset_holds := by simp [hrst]
  setaddr_request := by simp [hseq]
  data_request := by simp [hseq]
  outstanding := by simp [htp]
  no_txn _ := htxn
  result_reachable := hresult
  result_running := by simp [State.transferring, hseq]
  data_latched := by simp [hseq]
  data_received _ hop hcode := hdata hcode hop
  lock := by simpa [hseq] using h.lock

end ToInvariant

/-- Settles O50: the reset state has no command in progress, two free ports and nothing in PAYLOAD. -/
theorem invariantHoldsAtReset : Obligations.InvariantHoldsAtReset := by
  have hfree : ∀ (r : Nat) (p : ReqPort), State.reset.ports[r]? = some p → p = ReqPort.free := by
    intro r p hp
    simpa [State.reset] using List.mem_of_getElem? hp
  have hstanding : State.reset.Standing False := {
    params_wf := by decide
    ports_length := rfl
    owner_lt := by decide
    payload_wf := reset_payload_wf
    payload_below := by simp [State.reset]
    no_answer := rfl
    header_legal := .inl rfl
    lock := fun r p hp => by simp [hfree r p hp, ReqPort.free]
    offers := fun r p req hp => by simp [hfree r p hp, ReqPort.free] }
  exact hstanding.inv_of_idle rfl rfl rfl (by decide) nofun

end Sys2Proof.Machine
end

section
/-! The invariant under the operations of a command: the acceptance, the start step, the transport's answer and the
outcome (R111 to R127, R150 to R163). -/

namespace Sys2Proof.Machine

/-- What is outstanding does not depend on the schedule, the ports or the power queue. -/
theorem State.Outstanding.congr {s t : State} (h : s.Outstanding) (hparams : t.params = s.params)
    (hengreq : t.engreq = s.engreq) (hhdr : t.hdrTx = s.hdrTx) (htxn : t.txn = s.txn) (hpayload : t.payload = s.payload)
    (hepoch : t.payloadEpoch = s.payloadEpoch) : t.Outstanding := by
  unfold State.Outstanding at h ⊢
  simpa only [hparams, hengreq, hhdr, htxn, State.txBytes_congr hparams hpayload hepoch] using h

/-- No field of the invariant speaks of the schedule, of the choices made or of the power port. -/
theorem State.Inv.rescheduled {s : State} (hi : s.Inv) (power : List Notification) (grant choices : Nat)
    (moves : List Move) :
    State.Inv { s with power := power, grant := grant, choices := choices, moves := moves } where
  __ := hi
  outstanding htp := ⟨(hi.outstanding htp).1, (hi.outstanding htp).2.congr rfl rfl rfl rfl rfl rfl⟩

/-- The ports after an update of one of them. -/
theorem updatePort_port_cases {s : State} {r q : Nat} {f : ReqPort → ReqPort} {p : ReqPort}
    (h : (s.updatePort r f).ports[q]? = some p) :
    (q = r ∧ ∃ p₀, s.ports[q]? = some p₀ ∧ p = f p₀) ∨ (q ≠ r ∧ s.ports[q]? = some p) := by
  by_cases hq : q = r
  · subst hq
    cases hp₀ : s.ports[q]? with
    | none => simp [hp₀] at h
    | some p₀ =>
      cases (State.updatePort_ports_same f hp₀).symm.trans h
      exact .inl ⟨rfl, p₀, rfl, rfl⟩
  · exact .inr ⟨hq, (State.updatePort_ports_other f hq).symm.trans h⟩

/-- R21, R61: the write data that is latched fits the buffer. -/
theorem wdata_fits {p : Params} {cmdw : Word} {wdata : List Byte}
    (hw : Request.wf { cmdw := cmdw, wdata := wdata } = true) (hl : latches p cmdw = true) :
    wdata.length = (cmdLen cmdw).toNat ∧ wdata.length ≤ payloadBytes p := by
  obtain ⟨hop, hfit⟩ := latches_iff.mp hl
  have hlen : wdata.length = (cmdLen cmdw).toNat := by simpa [Request.wf, hop] using hw
  refine ⟨hlen, ?_⟩
  simp only [payloadBytes, hdrSize]
  omega

/-- R74: what a write at index 0 covers has been written. -/
theorem memGet_memPut_isSome_inside (m : Memory) {bs : List Byte} {a : Nat} (ha : a < bs.length) :
    (memGet (memPut m 0 bs) a).isSome = true := by
  have hget : memGet (memPut m 0 bs) a = some bs[a] := by simpa [ha] using memGet_memPut_inside m 0 a bs ha
  simp [hget]

/-- A write at index 0 leaves no written byte unwritten (R36). -/
theorem memGet_memPut_isSome {m : Memory} {a : Nat} (bs : List Byte) (h : (memGet m a).isSome = true) :
    (memGet (memPut m 0 bs) a).isSome = true := by
  by_cases ha : a < bs.length
  · exact memGet_memPut_isSome_inside m ha
  · rwa [memGet_memPut_outside m 0 a bs (.inr (by omega))]

theorem State.written_of_put {s : State} {m : Memory} {bs : List Byte} (hp : s.payload = memPut m 0 bs) :
    s.written bs.length := fun _ ha => hp ▸ memGet_memPut_isSome_inside m ha

section Acceptance
variable {s : State} {cmdw : Word} {wdata : List Byte}

theorem State.latch_payload_wf (h : Memory.wf s.payload) : Memory.wf (s.latch cmdw wdata).payload := by
  rw [State.latch_payload]
  split
  · exact memPut_wf h 0 wdata
  · exact h

theorem State.latch_payload_below (h : Memory.below s.payload (payloadBytes s.params))
    (hw : Request.wf { cmdw := cmdw, wdata := wdata } = true) :
    Memory.below (s.latch cmdw wdata).payload (payloadBytes s.params) := by
  rw [State.latch_payload]
  split
  · rename_i hl
    obtain ⟨_, hfit⟩ := wdata_fits hw hl
    exact memPut_below h (by simpa using hfit)
  · exact h

/-- R151, R152: the acceptance takes the lock for the requester it chooses. -/
theorem State.Standing.latch (h : s.Standing False) {req : Request} (ho : s.offerOf s.grant = some req)
    (hw : Request.wf { cmdw := cmdw, wdata := wdata } = true) : (s.latch cmdw wdata).Standing True where
  __ := h
  ports_length := by simpa using h.ports_length
  owner_lt := by
    obtain ⟨p, hp, _⟩ := State.offerOf_eq_some ho
    obtain ⟨hlt, _⟩ := List.getElem?_eq_some_iff.mp hp
    exact h.ports_length ▸ hlt
  payload_wf := State.latch_payload_wf h.payload_wf
  payload_below := State.latch_payload_below h.payload_below hw
  lock r p hp := by
    rcases updatePort_port_cases hp with ⟨rfl, p₀, _, rfl⟩ | ⟨hr, hp⟩
    · simp
    · simpa [hr] using h.lock r p hp
  offers r p req hp ho := by
    rcases updatePort_port_cases hp with ⟨_, p₀, _, rfl⟩ | ⟨_, hp⟩
    · cases ho
    · exact h.offers r p req hp ho

/-- R154, R155, R163: the entry actions, by the operation code of the command. -/
def State.enter (op : BitVec 2) (s : State) : State :=
  if op = 0#2 then s.enterWrite else if op = 1#2 then s.enterRead else s.enterReserved

/-- R81, R150: every command word is accepted as it stands, with the entry actions of its operation code. -/
theorem exec_decodeCmd (w : Word) (s : State) : exec (decodeCmd w) s = s.accept w (State.enter (cmdOp w)) := by
  unfold State.enter
  by_cases hw : cmdOp w = 0#2
  · simpa only [if_pos hw] using exec_decodeCmd_of_write hw s
  · by_cases hr : cmdOp w = 1#2
    · simpa only [if_neg hw, if_pos hr] using exec_decodeCmd_of_read hr s
    · simpa only [if_neg hw, if_neg hr] using exec_decodeCmd_of_reserved hw hr s

/-- R150, R151: the core's step in IDLE, for a requester that offers. -/
theorem coreStep_accepts {pick : Nat} {req : Request} (hi : s.Inv) (hrst : s.rst = false) (hseq : s.seq = .idle)
    (ho : s.offerOf pick = some req) :
    coreStep pick s = .next (((s.granting pick).latch req.cmdw req.wdata).enter (cmdOp req.cmdw)) := by
  have htp := hi.tp_of_idle hseq
  have hacc : (s.granting pick).canAccept = true := State.canAccept_iff.mpr ⟨hrst, htp, hseq⟩
  calc coreStep pick s = exec (decodeCmd req.cmdw) (s.granting pick) := coreStep_idle hrst htp hseq ho
    _ = (s.granting pick).accept req.cmdw (State.enter (cmdOp req.cmdw)) := exec_decodeCmd ..
    _ = _ := State.accept_next hacc ho (hi.wf_of_offer ho)

/-- R151: the data of an accepted BLK_WRITE that fits the frame is latched. -/
theorem State.latch_written (hop : cmdOp cmdw = 0#2) (hw : Request.wf { cmdw := cmdw, wdata := wdata } = true)
    (hfit : (cmdLen cmdw).toNat + 2 ≤ s.params.maxFrame) : (s.latch cmdw wdata).written (cmdLen cmdw).toNat := by
  have hl := latches_iff.mpr ⟨hop, hfit⟩
  obtain ⟨hlen, _⟩ := wdata_fits hw hl
  exact hlen ▸ State.written_of_put (State.latch_payload_of_latches wdata hl)

/-- R150 to R155, R163: the acceptance of a well-formed request, whatever its operation code. -/
theorem State.Inv.accepted (hi : s.Inv) (hrst : s.rst = false) (hseq : s.seq = .idle) {req : Request}
    (ho : s.offerOf s.grant = some req) (hw : Request.wf { cmdw := cmdw, wdata := wdata } = true) :
    ((s.latch cmdw wdata).enter (cmdOp cmdw)).Inv := by
  have hstanding := (hi.standing_idle hseq).latch ho hw
  have htp := hi.tp_of_idle hseq
  have htxn := hi.no_txn htp
  unfold State.enter
  split_ifs with hwrite hread
  · exact State.Standing.inv_of_requested { hstanding with }
      (.writing rfl hwrite rfl (State.latch_written (s := s) hwrite hw)) hrst htp htxn (.inl rfl)
  · exact State.Standing.inv_of_requested { hstanding with } (.positioning rfl hread rfl) hrst htp htxn (.inl rfl)
  · have hresult : (s.latch cmdw wdata).enterReserved.result = 0x00000102#32 := setOutcome_zero_invalidOp
    refine State.Standing.inv_of_posted { hstanding with } rfl hrst htp htxn ?_ fun _ hop => absurd hop hread
    rw [hresult]
    decide

end Acceptance

section Outcome
variable {s : State}

theorem codeBits_eq_ok_iff {code : Code} : codeBits code = codeBits .ok ↔ code = .ok := by
  cases code <;> decide

/-- R158: the translation makes no transfer succeed that failed. -/
theorem translateCode_eq_ok_iff {code : Code} : translateCode code = .ok ↔ code = .ok := by
  cases code <;> decide

/-- R156, R158: ending a command with a result that its code and cause make from a running one. -/
theorem State.Inv.finish (hi : s.Inv) (htr : s.transferring = true) (htp : s.tp = false) {code : Code}
    {cause : BitVec 4} (hposted : ∀ r, (r = 0x000#32 ∨ r = 0x200#32) → setOutcome r code cause ∈ reachableResults)
    (hdata : code = .ok → s.DataReceived) : (s.finish code cause).Inv := by
  have hseq := State.ne_idle_of_transferring htr
  refine State.Standing.inv_of_posted { hi.standing_busy hseq with } rfl (hi.rst_of_ne_idle hseq) htp (hi.no_txn htp)
    (hposted s.result (hi.result_running htr)) fun hcode => ?_
  rw [State.finish_result, resCode_setOutcome, codeBits_eq_ok_iff] at hcode
  exact hdata hcode

/-- R156, R157: the outcome of the positioning write, which the sync validator judged. -/
theorem State.Inv.afterPositioning (hi : s.Inv) (hseq : s.seq = .setaddr) (hop : cmdOp s.cmd = 1#2)
    (htp : s.tp = false) {code : Code} (hcode : code = .ok ∨ code = .nack) : (s.handOutcome code).Inv := by
  have htr : s.transferring = true := State.transferring_iff.mpr (.inl hseq)
  rcases hcode with rfl | rfl
  · rw [handOutcome_positioned hseq]
    have hbusy := State.ne_idle_of_transferring htr
    exact State.Standing.inv_of_requested { hi.standing_busy hbusy with } (.reading rfl hop rfl)
      (hi.rst_of_ne_idle hbusy) htp (hi.no_txn htp) (hi.result_running htr)
  · rw [handOutcome_not_positioned (code := .nack) hseq nofun]
    refine hi.finish htr htp ?_ nofun
    rintro r (rfl | rfl) <;> decide

/-- R158: the outcome of a data transfer, with the codes that arise in DATA. -/
theorem State.Inv.afterData (hi : s.Inv) (hseq : s.seq = .data) (htp : s.tp = false) {code : Code}
    (hcode : code = .ok ∨ code = .nack ∨ code = .frameTooLarge) (hdata : code = .ok → s.DataReceived) :
    (s.handOutcome code).Inv := by
  have htr : s.transferring = true := State.transferring_iff.mpr (.inr hseq)
  rw [handOutcome_of_data hseq]
  refine hi.finish htr htp ?posted fun hok => hdata (translateCode_eq_ok_iff.mp hok)
  case posted =>
    rcases hcode with rfl | rfl | rfl <;> rintro r (rfl | rfl) <;> decide

end Outcome

section StartStep
variable {s : State}

/-- R96: the encoder generates a write header or the read header. -/
theorem headerFor_legal (dir : Dir) (addr : BitVec 9) :
    (headerFor dir addr).b0 = 0x00#8 ∨ (headerFor dir addr).b0 = 0x02#8 ∨
      headerFor dir addr = { b0 := 0x01#8, b1 := 0x00#8 } := by
  cases dir with
  | read => exact .inr (.inr rfl)
  | write =>
    show writeHeader0 addr = _ ∨ writeHeader0 addr = _ ∨ _
    rw [writeHeader0_eq]
    split
    · exact .inr (.inl rfl)
    · exact .inl rfl

/-- Issuing a transaction reads PAYLOAD and does not write it (R119). -/
theorem txBytes_issue (s : State) (hdr : HdrReg) (txn : Txn) (dir : Dir) (hasBuf : Bool) (len : BitVec 12) :
    ((s.populateHeader hdr).issue txn).txBytes dir hasBuf len = s.txBytes dir hasBuf len :=
  State.txBytes_congr (s := s) (t := (s.populateHeader hdr).issue txn) rfl rfl rfl dir hasBuf len

/-- R115 to R122: a start step whose checks pass puts the transaction that ENGREQ asks for on the port. -/
theorem State.Inv.issued (hi : s.Inv) (hs : s.canStart = true) {dir : Dir} {bytes : List Byte}
    (hdir : opDir (engOp s.engreq) = some dir)
    (hcheck : engineCheck s.params.maxFrame dir (engHasBuf s.engreq) (engLen s.engreq) = none)
    (hbytes : s.txBytes dir (engHasBuf s.engreq) (engLen s.engreq) = some bytes) :
    ((s.populateHeader (headerFor dir (engAddr s.engreq))).issue
      (txnFor dir (headerFor dir (engAddr s.engreq)) (engHasBuf s.engreq) (engLen s.engreq) bytes)).Inv := by
  obtain ⟨hrst, htr, _⟩ := State.canStart_iff.mp hs
  exact {
    hi with
    reset_holds := by simp [hrst]
    outstanding := fun _ => ⟨htr, dir, bytes, hdir, hcheck, (txBytes_issue ..).trans hbytes, rfl, rfl⟩
    no_txn := nofun
    header_legal := headerFor_legal dir _ }

/-- R113: only the data transfer can exceed the frame. -/
theorem State.Inv.seq_data_of_frameTooLarge (hi : s.Inv) (htr : s.transferring = true) {dir : Dir}
    (hdir : opDir (engOp s.engreq) = some dir)
    (hcheck : engineCheck s.params.maxFrame dir (engHasBuf s.engreq) (engLen s.engreq) = some .frameTooLarge) :
    s.seq = .data := by
  cases hi.requested htr with
  | positioning _ _ hreq =>
    obtain rfl : dir = .write := by simpa [hreq, setaddrRequest, opDir, eq_comm] using hdir
    simp [hreq, setaddrRequest, engineCheck_positioning hi.two_le_maxFrame] at hcheck
  | writing hseq | reading hseq => exact hseq

/-- R111 to R122: the start step of the engine request. -/
theorem exec_decodeEng_start_keeps_inv {t : State} (hi : s.Inv) (hs : s.canStart = true)
    (h : exec (decodeEng s.engreq) s = .next t) : t.Inv := by
  obtain ⟨_, htr, htp⟩ := State.canStart_iff.mp hs
  obtain ⟨dir, hdir, hbuf⟩ := dataRequestIsNeverInvalid s hi htr
  rw [exec_decodeEng_of_dir hdir, transfer_of_canStart hs] at h
  rcases s.startTransfer_cases dir (engHasBuf s.engreq) (engAddr s.engreq) (engLen s.engreq) with
    ⟨code, hcheck, hstart⟩ | ⟨_, _, hstart⟩ | ⟨bytes, hcheck, hbytes, hstart⟩ <;> cases hstart.symm.trans h
  · rcases engineCheck_with_buffer (maxFrame := s.params.maxFrame) (len := engLen s.engreq) hbuf with hbig | hnone
    · cases hcheck.symm.trans hbig
      exact hi.afterData (hi.seq_data_of_frameTooLarge htr hdir hbig) htp (.inr (.inr rfl)) nofun
    · cases hcheck.symm.trans hnone
  · exact hi.issued hs hdir hcheck hbytes

end StartStep

section CompletionStep
variable {s : State} {res : TransportResult}

/-- R35, R123: recording TSTATUS keeps a running result running. -/
theorem orTerr_running {r : Word} (tstatus : Bool) (h : r = 0x000#32 ∨ r = 0x200#32) :
    orTerr r tstatus = 0x000#32 ∨ orTerr r tstatus = 0x200#32 := by
  rcases h with rfl | rfl <;> cases tstatus <;> decide

/-- R123, R127: once the answer is received and stored, the transfer stands requested as it did before its start step. -/
theorem State.Inv.received {dir : Dir} {hasBuf : Bool} {len : BitVec 12} {u : State} (hi : s.Inv)
    (htr : s.transferring = true) (hu : ((s.consuming res).receive dir res).storeData dir hasBuf len res = some u) :
    u.Inv := by
  have hbusy := State.ne_idle_of_transferring htr
  have hstanding := hi.standing_busy hbusy
  have hrequested := hi.requested htr
  have hrst := hi.rst_of_ne_idle hbusy
  have hresult := orTerr_running res.tstatus (hi.result_running htr)
  rcases State.storeData_cases _ dir hasBuf len res with ⟨_, hs⟩ | ⟨_, _, hfit, hs⟩ | ⟨_, _, _, hs⟩ <;>
    cases hs.symm.trans hu
  · refine State.Standing.inv_of_requested { hstanding with no_answer := rfl } ?_ hrst rfl rfl hresult
    cases hrequested with
    | positioning hseq hop hreq => exact .positioning hseq hop hreq
    | writing hseq hop hreq hlatched => exact .writing hseq hop hreq hlatched
    | reading hseq hop hreq => exact .reading hseq hop hreq
  · refine State.Standing.inv_of_requested
      { hstanding with
        no_answer := rfl
        payload_wf := memPut_wf hstanding.payload_wf 0 _
        payload_below := memPut_below hstanding.payload_below (by simpa using hfit) } ?_ hrst rfl rfl hresult
    cases hrequested with
    | positioning hseq hop hreq => exact .positioning hseq hop hreq
    | writing hseq hop hreq hlatched =>
      exact .writing hseq hop hreq fun hfits a ha => memGet_memPut_isSome _ (hlatched hfits a ha)
    | reading hseq hop hreq => exact .reading hseq hop hreq

/-- R127, R158: the data that a completed read asked for has been received: the answer has its length, and it fits. -/
theorem dataReceived_of_read {dir : Dir} {u : State} (hreq : s.engreq = readRequest s.cmd)
    (hdir : opDir (engOp s.engreq) = some dir)
    (hw : res.wf (rxLengths dir (engHasBuf s.engreq) (engLen s.engreq)) = true)
    (hu : ((s.consuming res).receive dir res).storeData dir (engHasBuf s.engreq) (engLen s.engreq) res = some u) :
    u.DataReceived := by
  obtain rfl : dir = .read := by simpa [hreq, readRequest, opDir, eq_comm] using hdir
  simp only [hreq, readRequest, engHasBuf_engWord, engLen_engWord] at hw hu
  intro _
  by_cases hp : dataPhase true (cmdLen s.cmd) = true
  · obtain ⟨hfit, rfl⟩ := (storeData_read_iff hp).mp hu
    have hlen := rx_data_length hp hw
    exact hlen ▸ ⟨hfit, State.written_of_put rfl⟩
  · cases (storeData_of_no_data res fun ⟨_, h⟩ => hp h).symm.trans hu
    have hzero : (cmdLen s.cmd).toNat = 0 := by simpa [dataPhase_iff] using hp
    refine ⟨hzero ▸ Nat.zero_le _, fun a (ha : a < (cmdLen s.cmd).toNat) => ?_⟩
    omega

/-- R124: the sync validator's two codes. -/
theorem classify_ok_or_nack (sync b : Byte) : classify sync b = .ok ∨ classify sync b = .nack := by
  rcases classify_cases sync b with ⟨_, h⟩ | ⟨_, h⟩
  · exact .inl h
  · exact .inr h

/-- R123 to R127, R156, R158: the completion step of the engine request. -/
theorem completeTransfer_keeps_inv {dir : Dir} {t : State} (hi : s.Inv) (htr : s.transferring = true)
    (hdir : opDir (engOp s.engreq) = some dir)
    (h : (s.consuming res).completeTransfer dir (engHasBuf s.engreq) (engLen s.engreq) res = .next t) : t.Inv := by
  rcases State.completeTransfer_cases (s.consuming res) dir (engHasBuf s.engreq) (engLen s.engreq) res with
    ⟨_, hc⟩ | ⟨_, _, hc⟩ | ⟨u, hw, hu, hc⟩ <;> cases hc.symm.trans h
  have hui := hi.received htr hu
  have hcode := classify_ok_or_nack u.params.syncByte u.hdrRx.b0
  obtain ⟨m, hum⟩ := storeData_eq_withPayload hu
  have hseq : u.seq = s.seq := hum ▸ rfl
  have hcmd : u.cmd = s.cmd := hum ▸ rfl
  have htp : u.tp = false := hum ▸ rfl
  cases hi.requested htr with
  | positioning hpos hop _ => exact hui.afterPositioning (hseq.trans hpos) (hcmd ▸ hop) htp hcode
  | writing hdata hop _ _ =>
    have hnone : u.DataReceived := fun hread => by simp [hcmd, hop] at hread
    exact hui.afterData (hseq.trans hdata) htp (hcode.imp_right .inl) fun _ => hnone
  | reading hdata hop hreq =>
    exact hui.afterData (hseq.trans hdata) htp (hcode.imp_right .inl) fun _ => dataReceived_of_read hreq hdir hw hu

end CompletionStep

end Sys2Proof.Machine
end

section
/-! The invariant under each agent's step (R20 to R24, R161, R220, R222), and the whole machine's. -/

namespace Sys2Proof.Machine

section AgentSteps
variable {s t : State}

/-- R111, R150: the core's step is an acceptance of an offer that the invariant knows to be well formed, or a start
step. -/
theorem coreStep_keeps_inv {pick : Nat} (hi : s.Inv) (h : coreStep pick s = .next t) : t.Inv := by
  rcases coreStep_cases pick s with hc | ⟨req, hacc, ho, _⟩ | ⟨hs, hc⟩
  · cases hc.symm.trans h
    exact hi
  · obtain ⟨hrst, _, hseq⟩ := State.canAccept_iff.mp hacc
    cases (coreStep_accepts hi hrst hseq ho).symm.trans h
    have hgranting : (s.granting pick).Inv := hi.rescheduled s.power pick s.choices s.moves
    exact hgranting.accepted hrst hseq ho (hi.wf_of_offer ho)
  · exact exec_decodeEng_start_keeps_inv hi hs (hc.symm.trans h)

/-- R123: the transport's answer is not consumed, or it completes the request in ENGREQ. -/
theorem transportStep_keeps_inv {res : TransportResult} (hi : s.Inv) (h : transportStep res s = .next t) : t.Inv := by
  cases hc : s.canComplete with
  | false =>
    cases (transportStep_of_not_canComplete res hc).symm.trans h
    exact hi
  | true =>
    obtain ⟨_, htr, _⟩ := State.canComplete_iff.mp hc
    obtain ⟨dir, hdir, _⟩ := dataRequestIsNeverInvalid s hi htr
    exact completeTransfer_keeps_inv hi htr hdir ((transportStep_eq_completeTransfer res hc hdir).symm.trans h)

/-- R21: an offer that is put on a port is well formed, and its requester does not wait. -/
theorem State.Inv.offered (hi : s.Inv) {r : Nat} {p : ReqPort} {req : Request} (hp : s.ports[r]? = some p)
    (hwait : p.waiting = false) (hreq : req.wf = true) :
    (s.updatePort r fun q => { q with offer := some req }).Inv where
  __ := hi
  ports_length := by simpa using hi.ports_length
  outstanding htp := ⟨(hi.outstanding htp).1, (hi.outstanding htp).2.congr rfl rfl rfl rfl rfl rfl⟩
  lock q p' hp' := by
    rcases updatePort_port_cases hp' with ⟨_, p₀, hp₀, rfl⟩ | ⟨_, hq⟩
    · exact hi.lock q p₀ hp₀
    · exact hi.lock q p' hq
  offers q p' req' hp' ho := by
    rcases updatePort_port_cases hp' with ⟨rfl, p₀, hp₀, rfl⟩ | ⟨_, hq⟩
    · cases hp.symm.trans hp₀
      cases ho
      exact ⟨hreq, hwait⟩
    · exact hi.offers q p' req' hq ho

theorem offerStep_keeps_inv {r : Nat} {req : Request} (hi : s.Inv) (h : offerStep r req s = .next t) : t.Inv := by
  rcases offerStep_cases r req s with ho | ⟨p, hp, _, hwait, hreq, ho⟩ | ⟨_, ho⟩ <;> cases ho.symm.trans h
  · exact hi
  · exact hi.offered hp hwait hreq

/-- R161: the delivery releases the lock. -/
theorem State.Inv.delivered (hi : s.Inv) (hseq : s.seq = .resp) (resp : Response) : (s.deliver resp).Inv := by
  have hbusy : s.seq ≠ .idle := by simp [hseq]
  have htp : s.tp = false := by
    by_contra htp
    exact hi.seq_ne_resp_of_tp (by simpa using htp) hseq
  have hstanding := hi.standing_busy hbusy
  have hfree : (s.deliver resp).Standing False := {
    hstanding with
    ports_length := by simpa using hi.ports_length
    lock := fun r p hp => by
      rcases updatePort_port_cases hp with ⟨_, p₀, _, rfl⟩ | ⟨hr, hp⟩
      · simp
      · simpa [hr] using hstanding.lock r p hp
    offers := fun r p req hp ho => by
      rcases updatePort_port_cases hp with ⟨_, p₀, hp₀, rfl⟩ | ⟨_, hp⟩
      · exact ⟨(hi.offers r p₀ req hp₀ ho).1, rfl⟩
      · exact hi.offers r p req hp ho }
  exact hfree.inv_of_idle rfl htp (hi.no_txn htp) hi.result_reachable
    (by simp [hi.rst_of_ne_idle hbusy])

theorem takeStep_keeps_inv {r : Nat} (hi : s.Inv) (h : takeStep r s = .next t) : t.Inv := by
  rcases takeStep_cases r s with ht | ⟨resp, _, hseq, _, _, ht⟩ | ⟨_, _, _, _, ht⟩ <;> cases ht.symm.trans h
  · exact hi
  · exact hi.delivered hseq resp

/-- R220: asserting RESET gives the registers their reset values and ends every waiting. -/
theorem State.Inv.assertReset (hi : s.Inv) : s.assertReset.Inv := by
  have hports : ∀ {r : Nat} {p : ReqPort}, s.assertReset.ports[r]? = some p →
      ∃ p₀ : ReqPort, s.ports[r]? = some p₀ ∧ p = { p₀ with waiting := false } := by
    intro r p hp
    simpa [eq_comm] using hp
  have hfree : s.assertReset.Standing False := {
    params_wf := hi.params_wf
    ports_length := by simpa using hi.ports_length
    owner_lt := Nat.zero_lt_of_lt hi.owner_lt
    payload_wf := List.Pairwise.nil
    payload_below := by simp
    no_answer := rfl
    header_legal := .inl rfl
    lock := fun r p hp => by
      obtain ⟨p₀, _, rfl⟩ := hports hp
      simp
    offers := fun r p req hp ho => by
      obtain ⟨p₀, hp₀, rfl⟩ := hports hp
      exact ⟨(hi.offers r p₀ req hp₀ ho).1, rfl⟩ }
  exact hfree.inv_of_idle rfl rfl rfl (mem_reachableResults_of_running (.inl rfl)) fun _ => s.assertReset_atReset

/-- R222: deasserting RESET changes the input alone. -/
theorem State.Inv.deassertReset (hi : s.Inv) : s.deassertReset.Inv where
  __ := hi
  reset_holds := nofun
  outstanding htp := ⟨(hi.outstanding htp).1, (hi.outstanding htp).2.congr rfl rfl rfl rfl rfl rfl⟩

theorem moveStep_keeps_inv {m : Move} (hi : s.Inv) (h : moveStep m s = .next t) : t.Inv := by
  cases m with
  | offer r req => exact offerStep_keeps_inv hi h
  | core pick => exact coreStep_keeps_inv hi h
  | transport res => exact transportStep_keeps_inv hi h
  | take r => exact takeStep_keeps_inv hi h
  | power =>
    cases h
    exact hi.rescheduled s.power.tail s.grant s.choices s.moves
  | resetAssert =>
    cases h
    exact hi.assertReset
  | resetDeassert =>
    cases h
    exact hi.deassertReset

theorem ownStep_keeps_inv (hi : s.Inv) (h : ownStep s = .next t) : t.Inv := by
  rcases ownStep_cases s with ho | ⟨pick, ho⟩ | ⟨pick, ho⟩
  · cases ho.symm.trans h
    exact hi
  · exact coreStep_keeps_inv hi (ho.symm.trans h)
  · exact coreStep_keeps_inv (hi.rescheduled s.power s.grant (s.choices + 1) s.moves) (ho.symm.trans h)

end AgentSteps

/-- Settles O51: the step is the scheduled agent's or the core's own, each of which keeps the invariant. -/
theorem everyStepKeepsInvariant : Obligations.EveryStepKeepsInvariant := by
  intro s t hi h
  cases hm : s.moves with
  | nil => exact ownStep_keeps_inv hi ((step_of_no_moves hm).symm.trans h)
  | cons m rest =>
    exact moveStep_keeps_inv (hi.rescheduled s.power s.grant s.choices rest) ((step_of_moves hm).symm.trans h)

end Sys2Proof.Machine
end

section
/-! The core alone: with no move scheduled it accepts one of the pending requests (R150, I6). -/

namespace Sys2Proof.Machine

theorem offeringFrom_cons (k : Nat) (p : ReqPort) (rest : List ReqPort) :
    offeringFrom k (p :: rest) =
      if p.offer.any Request.wf then k :: offeringFrom (k + 1) rest else offeringFrom (k + 1) rest := by
  cases ho : p.offer <;> simp [offeringFrom, ho]

/-- R150: a requester is pending exactly where its port offers a well-formed request. -/
theorem mem_offeringFrom_iff {r : Nat} {ports : List ReqPort} : ∀ {k : Nat}, r ∈ offeringFrom k ports ↔
    ∃ i p, r = k + i ∧ ports[i]? = some p ∧ p.offer.any Request.wf = true := by
  induction ports with
  | nil => simp [offeringFrom]
  | cons p rest ih =>
    intro k
    rw [offeringFrom_cons]
    constructor
    · intro h
      have hcases : (r = k ∧ p.offer.any Request.wf = true) ∨ r ∈ offeringFrom (k + 1) rest := by
        split at h
        · rename_i hp
          exact (List.mem_cons.mp h).imp_left (⟨·, hp⟩)
        · exact .inr h
      rcases hcases with ⟨rfl, hp⟩ | hr
      · exact ⟨0, p, rfl, rfl, hp⟩
      · obtain ⟨i, q, rfl, hq, ho⟩ := ih.mp hr
        exact ⟨i + 1, q, by omega, hq, ho⟩
    · rintro ⟨i, q, rfl, hq, ho⟩
      cases i with
      | zero =>
        cases hq
        simp [ho]
      | succ i =>
        have hr : k + (i + 1) ∈ offeringFrom (k + 1) rest := ih.mpr ⟨i, q, by omega, hq, ho⟩
        split
        · exact List.mem_cons_of_mem k hr
        · exact hr

/-- R150, I6: with requests pending, an idle core's own step is the core's step for one of them. -/
theorem ownStep_of_pending {s : State} (hseq : s.seq = .idle) (hne : offeringFrom 0 s.ports ≠ []) :
    ∃ pick ∈ offeringFrom 0 s.ports, ∃ choices, ownStep s = coreStep pick { s with choices := choices } := by
  unfold ownStep
  split
  · split
    · rename_i hnil
      exact absurd hnil hne
    · rename_i r hone
      exact ⟨r, by simp [hone], s.choices, rfl⟩
    · rename_i r rest _ hmany
      have hlt : Config.arbitration s.choices % (rest.length + 1) < (r :: rest).length := Nat.mod_lt _ (by omega)
      refine ⟨_, ?_, s.choices + 1, rfl⟩
      rw [hmany, List.getD_eq_getElem _ _ hlt]
      exact List.getElem_mem hlt
  · exact absurd hseq ‹_›

section Entry
variable (op : BitVec 2) (s : State)

@[simp] theorem State.enter_cmd : (s.enter op).cmd = s.cmd := by
  unfold State.enter
  split_ifs <;> rfl

@[simp] theorem State.enter_owner : (s.enter op).owner = s.owner := by
  unfold State.enter
  split_ifs <;> rfl

/-- R152: every accepted command takes the lock. -/
theorem State.enter_seq_ne_idle : (s.enter op).seq ≠ .idle := by
  unfold State.enter
  split_ifs <;> nofun

end Entry

/-- Settles O39: the pick, whichever it is, is a requester whose port offers a request, and the core accepts it. -/
theorem coreAloneAcceptsAPendingRequest : Obligations.CoreAloneAcceptsAPendingRequest := by
  intro s hi hmoves hrst hseq ⟨r, req, ho⟩
  obtain ⟨p, hp, hoffer⟩ := State.offerOf_eq_some ho
  have hpending : r ∈ offeringFrom 0 s.ports :=
    mem_offeringFrom_iff.mpr ⟨r, p, by omega, hp, by simpa [hoffer] using hi.wf_of_offer ho⟩
  obtain ⟨pick, hpick, choices, hown⟩ := ownStep_of_pending hseq (List.ne_nil_of_mem hpending)
  obtain ⟨i, q, rfl, hq, hany⟩ := mem_offeringFrom_iff.mp hpick
  rw [Nat.zero_add] at hown
  cases hreq : q.offer with
  | none => simp [hreq] at hany
  | some req' =>
    have hpicked : s.offerOf i = some req' := (State.offerOf_of_port hq).trans hreq
    have hi' : State.Inv { s with choices := choices } := hi.rescheduled s.power s.grant choices s.moves
    refine ⟨_, req', (step_of_no_moves hmoves).trans (hown.trans (coreStep_accepts hi' hrst hseq hpicked)), ?owner, ?cmd,
      State.enter_seq_ne_idle _ _⟩
    case owner => simpa using hpicked
    case cmd => simp

end Sys2Proof.Machine
end
